-- ==== Sys2Proof/Word.lean ====
section
/-! DEFINITION. The plain types every layer shares: text on the link, and the numbers of arms, lanes,
meter channels, injector channels and permissive inputs (00_scope 1.7). An identifier is held from 0;
the manual's number is one more. -/

namespace Sys2Proof

/-- Text on the link is a list of ASCII characters (chapter 10, section 10.1). -/
abbrev Chars := List Char

/-- Arms 1 to 8. -/
abbrev ArmId := Fin 8
/-- Lanes 1 to 4. -/
abbrev LaneId := Fin 4
/-- Meter channels M1 to M16. -/
abbrev MeterId := Fin 16
/-- Injector channels J1 to J12. -/
abbrev InjId := Fin 12
/-- Permissive inputs P0 to P7 of one arm; here the number is the manual's own. -/
abbrev PermId := Fin 8

/-- The level of a contact input. -/
inductive Contact
  | opened
  | closed
deriving DecidableEq, Repr

/-- The two metered components of a load, and so the two meters of an arm. -/
inductive Role
  | base
  | ethanol
deriving DecidableEq, Repr

/-- The three positions of the link-speed switch, in bit/s. -/
inductive Speed
  | b19200
  | b38400
  | b115200
deriving DecidableEq, Repr

end Sys2Proof
end

