-- ==== Sys2Proof/Syntax.lean ====
section
/-! DEFINITION. The commands of the AB-820: one constructor for each row of spec/opcode_table.json.

A request row carries the tokens that follow its request word in the body of a valid frame (R200); the
request word is the constructor itself. An event row carries the arm, lane, channel or level the event
concerns. -/

namespace Sys2Proof

/-- The positions of the two rotary switches (00_scope 1.8). Position `p` of the address switch is the
address `p + 1`, 1 to 31. -/
structure Switches where
  position : Fin 31
  speed    : Speed
deriving DecidableEq, Repr

/-- Every input level the module reads at power restore (R148, R178, R182, R195, R207). -/
structure Inputs where
  switches    : Switches
  permissives : Vector (Vector Contact 8) 8
  /-- `true` where the lane's emergency-stop input is active. -/
  emergency   : Vector Bool 4
  pressure    : Contact
  calibration : Contact
  proof       : Vector Contact 12
  /-- `true` where the channel's supply-low input reads LOW. -/
  supplyLow   : Vector Bool 12
deriving DecidableEq, Repr

/-- The commands. `RESTART` carries, beside its tokens, the rotary-switch positions the module reads
when it is accepted (R208), for no row of the table moves the switches. -/
inductive Instr
  | authorize (fields : List Chars)
  | amend (fields : List Chars)
  | cancel (fields : List Chars)
  | hold (fields : List Chars)
  | resume (fields : List Chars)
  | endLoad (fields : List Chars)
  | getLoad (fields : List Chars)
  | retireLoad (fields : List Chars)
  | listLoads (fields : List Chars)
  | storeRecipe (fields : List Chars)
  | getRecipe (fields : List Chars)
  | retireRecipe (fields : List Chars)
  | listRecipes (fields : List Chars)
  | setArm (fields : List Chars)
  | getArm (fields : List Chars)
  | decommissionArm (fields : List Chars)
  | getArmStatus (fields : List Chars)
  | setMeter (fields : List Chars)
  | getMeter (fields : List Chars)
  | setInjector (fields : List Chars)
  | getInjector (fields : List Chars)
  | setHeader (fields : List Chars)
  | getHeader (fields : List Chars)
  | setCause (fields : List Chars)
  | getCauses (fields : List Chars)
  | getPermissives (fields : List Chars)
  | resetArm (fields : List Chars)
  | resetLane (fields : List Chars)
  | getAttention (fields : List Chars)
  | clearAttention (fields : List Chars)
  | setAttentionEnable (fields : List Chars)
  | setLink (fields : List Chars)
  | getIdent (fields : List Chars)
  | restart (fields : List Chars) (switches : Switches)
  | factoryClear (fields : List Chars)
  /-- The tokens of a body whose first token, if any, is no request word. -/
  | unknownRequest (tokens : List Chars)
  /-- The characters of a completed frame between its start character and its carriage return. -/
  | invalidFrame (frame : Chars)
  | frameTimeout
  | startPress (arm : ArmId)
  | stopPress (arm : ArmId)
  | meterPulse (meter : MeterId)
  /-- The value read, in 0.1 °C; an open or shorted probe reads outside −400 … +600. -/
  | temperatureSample (meter : MeterId) (value : Int)
  | flowReading (meter : MeterId)
  | rampTick (arm : ArmId)
  | permissiveInputChange (arm : ArmId) (input : PermId) (level : Contact)
  | emergencyStopActive (lane : LaneId)
  | emergencyStopRelease (lane : LaneId)
  | headerPressureInputChange (level : Contact)
  | calibrationSwitchChange (level : Contact)
  | proofArrival (injector : InjId)
  | proofInputOpen (injector : InjId)
  /-- `low` is `true` for a change to LOW and `false` for a change to NORMAL. -/
  | supplyLowInputChange (injector : InjId) (low : Bool)
  | pulseWidthExpiry (injector : InjId)
  | proofTimerExpiry (injector : InjId)
  | noFlowTimerExpiry (arm : ArmId) (role : Role)
  | settleTimerExpiry (arm : ArmId)
  | maximumSettleExpiry (arm : ArmId)
  | linkTimeoutExpiry
  | powerRestore (inputs : Inputs)
  | admission
  | loadEntersEnded (arm : ArmId)
  | frameStartCharacter
  | frameLengthLimit
  | supplyLoss
  | responseSent
deriving DecidableEq, Repr

end Sys2Proof
end

