-- ==== Sys2Proof/Machine/Types.lean ====
section
/-! DEFINITION. The records of the state, as the manual's tables give them. Volumes are in mL, litre
quantities in L, flows in L/min, fractions in 0.01 %, temperatures in 0.1 °C (00_scope 1.6). -/

namespace Sys2Proof.Machine

/-- The load states (00_scope 1.4). -/
inductive LoadState
  | authorized | admitting | flowing | held | ending | settling | ended
deriving DecidableEq, Repr

inductive Phase
  | body | flush
deriving DecidableEq, Repr

/-- Why a load waits in ADMITTING. -/
inductive AdmitFrom
  | start | resume
deriving DecidableEq, Repr

/-- The pending outcome of a settling load; COMPLETE is its absence (R8, R14). -/
inductive PendingOutcome
  | short | tripped
deriving DecidableEq, Repr

inductive LoadOutcome
  | complete | short | tripped | interrupted
deriving DecidableEq, Repr

inductive EthVerdict
  | inSpec | offSpec | notDelivered
deriving DecidableEq, Repr

inductive AddVerdict
  | inSpec | offSpec
deriving DecidableEq, Repr

/-- Cause classes. -/
inductive Cls
  | note | hold | endC | trip
deriving DecidableEq, Repr

/-- The sixteen codes of the cause table (R183), in code order. -/
inductive Cause
  | driverStop | hostHold | emergencyStop | safetyPermissive | permissive | noFlow | flowHigh
  | ratioDeviation | additiveFail | additiveLag | supplyLow | probeFault | headerPressure | leakBy
  | linkLost | overrun
deriving DecidableEq, Repr

/-- A stop record's code: 0 (END_REQUEST) or a code of the table (chapter 1, section 1.1 item 3). -/
inductive StopCode
  | endRequest
  | cause (c : Cause)
deriving DecidableEq, Repr

/-- The details a cause may carry (R183). -/
inductive Detail
  | none
  | lane (l : LaneId)
  | input (k : PermId)
  | meter (m : MeterId)
  | injector (j : InjId)
  | shortOf
  | excess
  | litres (n : Nat)
deriving DecidableEq, Repr

/-- A component account, with the closed pulse count of R80. -/
structure Account where
  pulses : Nat
  gross  : Nat
  net    : Nat
  carry  : Nat
  /-- Temperature at last close. -/
  temp   : Int
  closed : Nat
deriving DecidableEq, Repr

/-- An additive entry of a load record. -/
structure AddEntry where
  id      : Nat
  dose    : Nat
  tol     : Nat
  inj     : InjId
  due     : Nat
  fired   : Nat
  proven  : Nat
  missed  : Nat
  consec  : Nat
  verdict : Option AddVerdict
deriving DecidableEq, Repr

/-- A stop record (R188). The phase is absent outside FLOWING and HELD. -/
structure StopRecord where
  code   : StopCode
  cls    : Cls
  detail : Detail
  state  : LoadState
  phase  : Option Phase
  v      : Nat
deriving DecidableEq, Repr

/-- A load record: Table 1.1, the closed pulse counts (R80, inside the accounts), the close volume
(R93) and the details the stop unit keeps for the hold set (R190). -/
structure Load where
  number      : Nat
  tag         : Option Chars
  arm         : ArmId
  recipe      : Nat
  rev         : Nat
  preset      : Nat
  amends      : Nat
  state       : LoadState
  phase       : Phase
  admitFrom   : Option AdmitFrom
  bt          : Nat
  et          : Nat
  adds        : List AddEntry
  base        : Account
  eth         : Account
  v           : Nat
  va          : Nat
  ea          : Nat
  db          : Nat
  rb          : Nat
  share       : Nat
  dev         : Int
  alarms      : Nat
  peak        : Nat
  /-- The close volume V_c. -/
  vc          : Nat
  /-- The hold set, in code order. -/
  holds       : List Cause
  /-- The details of condition-based causes taken since the hold set was last emptied (R190). -/
  holdDetails : List (Cause × Detail)
  resumes     : Nat
  /-- The notice set, in code order. -/
  notices     : List Cause
  stop1       : Option StopRecord
  stop2       : Option StopRecord
  escalated   : Bool
  flushInc    : Bool
  rstLeft     : Nat
  /-- The profile pointer. -/
  step        : Nat
  pendingOut  : Option PendingOutcome
  mca         : Nat
  mce         : Nat
  outcome     : Option LoadOutcome
  frac        : Option Nat
  ethVerdict  : Option EthVerdict
  overrun     : Option Nat
deriving DecidableEq, Repr

inductive StepKind
  | del | rem
deriving DecidableEq, Repr

/-- A profile step (Table 2.2). -/
structure Step where
  kind  : StepKind
  vol   : Nat
  limit : Nat
  rate  : Nat
deriving DecidableEq, Repr

/-- An additive entry of a recipe (Table 2.3). -/
structure RecipeAdd where
  id   : Nat
  dose : Nat
  tol  : Nat
deriving DecidableEq, Repr

/-- A recipe record (Table 2.1); `retiring` is its state. -/
structure Recipe where
  code     : Nat
  rev      : Nat
  name     : Option Chars
  r        : Nat
  tol      : Nat
  flush    : Nat
  h        : Nat
  profile  : List Step
  adds     : List RecipeAdd
  retiring : Bool
  refs     : Nat
deriving DecidableEq, Repr

/-- A used permissive input's required level and whether it is a safety input. -/
structure PermUse where
  level  : Contact
  safety : Bool
deriving DecidableEq, Repr

/-- An arm definition (Table 3.1). -/
structure ArmDef where
  lane      : LaneId
  baseMeter : MeterId
  ethMeter  : Option MeterId
  injectors : List InjId
  qMax      : Nat
  fsBase    : Nat
  fsEth     : Nat
  sMax      : Nat
  eMin      : Nat
  w         : Nat
  a         : Nat
  settle    : Nat
  maxSettle : Nat
  noFlow    : Nat
  rstFlow   : Nat
  rstVol    : Nat
  leak      : Nat
  resLimit  : Nat
  devCount  : Nat
  tMin      : Nat
  lag       : Nat
  catchUp   : Nat
  perms     : Vector (Option PermUse) 8
deriving DecidableEq, Repr

/-- The leak watch of an arm and the lag watch of a channel. -/
inductive Watch
  | armed | raised
deriving DecidableEq, Repr

/-- A timer: absent while stopped, and while running the time it was started with. -/
abbrev Timer := Option Nat

/-- The flow state of an arm (Table 6.1) but for the two items held in the load record. -/
structure FlowState where
  started        : Bool
  limit          : Nat
  rate           : Nat
  qDem           : Nat
  q              : Nat
  qBase          : Nat
  qEth           : Nat
  resumeVol      : Nat
  flushQty       : Int
  flushStart     : Nat
  settleTimer    : Timer
  maxTimer       : Timer
  lastSettle     : Option MeterId
  settleComplete : Bool
  overrun        : Nat
  noFlowBase     : Timer
  noFlowEth      : Timer
deriving DecidableEq, Repr

/-- The end stage of an arm (section 8.1). -/
inductive EndStage
  | none | awaitingFinal | catchingUp | done | tripped
deriving DecidableEq, Repr

/-- What the module holds for one arm. -/
structure Arm where
  defn        : Option ArmDef
  locked      : Bool
  lockRecord  : Option (Cause × Detail)
  strayBase   : Nat
  strayEth    : Nat
  strayVol    : Nat
  leakWatch   : Watch
  /-- The live levels of P0 to P7. -/
  levels      : Vector Contact 8
  /-- The permissive flag; absent while the arm is not commissioned (R179). -/
  permissive  : Option Bool
  /-- The latched failure set, in index order. -/
  latched     : List PermId
  flow        : FlowState
  valveBase   : Nat
  valveEth    : Nat
  endStage    : EndStage
  /-- Whether the end readiness of the settling load has been reported (R176). -/
  endReported : Bool
deriving DecidableEq, Repr

/-- A lane: its condition, shut cause and emergency-stop input. -/
structure Lane where
  shut      : Bool
  shutCause : Option Cause
  emergency : Bool
deriving DecidableEq, Repr

inductive Probe
  | waiting | good | fault
deriving DecidableEq, Repr

/-- A meter channel: the settings of Table 4.1 and the live state of R75. -/
structure Meter where
  k        : Nat
  mf       : Nat
  beta     : Nat
  tDepth   : Nat
  qDepth   : Nat
  tHist    : List Int
  tAvg     : Int
  probe    : Probe
  window   : Nat
  residue  : Nat
  qHist    : List Nat
  qAvg     : Nat
  high     : Bool
deriving DecidableEq, Repr

inductive ChanState
  | idle | firing | awaitProof
deriving DecidableEq, Repr

/-- An injector channel: the settings of Table 8.1 and the live state of R160. -/
structure Injector where
  addId       : Nat
  stroke      : Nat
  width       : Nat
  proofTo     : Nat
  supplyUsed  : Bool
  state       : ChanState
  pulseTimer  : Timer
  proofTimer  : Timer
  strokeLoad  : Option Nat
  lagWatch    : Watch
  catchUp     : Nat
  proofIn     : Contact
  supplyLow   : Bool
deriving DecidableEq, Repr

/-- A participant of the ethanol header, with its demand last handed and its grant. -/
structure Part where
  arm    : ArmId
  demand : Nat
  grant  : Nat
deriving DecidableEq, Repr

/-- The header allocator (chapter 7). -/
structure Header where
  cap          : Nat
  pressureUsed : Bool
  input        : Contact
  lost         : Bool
  /-- The participant set, in admission order. -/
  parts        : List Part
  /-- The admission queue, head first. -/
  queue        : List ArmId
deriving DecidableEq, Repr

/-- The attention sources, in the order of the table of section 10.3. -/
inductive Source
  | loadEnded | loadHeld | notice | armLocked | laneShut | recipeRemoved | admissionWait
  | powerRestored
deriving DecidableEq, Repr

/-- The attention flags (R201). Each list of flags stands in the order of `Source`. -/
structure Attention where
  pending : Vector Bool 8
  enabled : Vector Bool 8
  master  : Bool
deriving DecidableEq, Repr

/-- The refusal codes (R200). -/
inductive Code
  | unknown | format | range | notCommissioned | noEthanolMeter | noInjector | duplicate | tableFull
  | queueFull | recipeTableFull | noSuchLoad | noSuchRecipe | recipeRetiring | inUse | wrongState
  | tooLate | unreachable | calOpen | armLocked | laneShut | bound | stillHeld
deriving DecidableEq, Repr

/-- One field of a response: its keyword and its value. -/
abbrev Field := Chars × Chars

/-- A response (R200): OK with fields, OK with the word of R208 or R209, or NO with a code. -/
inductive Response
  | ok (fields : List Field)
  | okWord (word : Chars)
  | no (code : Code)
deriving DecidableEq, Repr

/-- A response frame being sent, with the module address it carries. -/
structure Sending where
  address  : Nat
  response : Response
deriving DecidableEq, Repr

/-- The link unit but for the attention flags. -/
structure Link where
  /-- The rotary-switch positions read at the last power restore or RESTART. -/
  switches  : Switches
  timeout   : Nat
  /-- The link timer: while it runs, the setting it was started with. -/
  timer     : Timer
  /-- Whether a frame is being received; its 1 s limit runs exactly then (R199). -/
  receiving : Bool
  sending   : Option Sending
deriving DecidableEq, Repr

end Sys2Proof.Machine
end

