-- ==== Sys2Proof/Machine/Tables.lean ====
section
/-! DEFINITION. The manual's fixed tables: the cause table's codes, defaults and allowed classes (R183),
the attention sources, the factory settings of the channels, the header and the arms, and the empty
records of a new load. -/

namespace Sys2Proof.Machine

/-- The least bound of the saturating volume and pulse fields (00_scope 1.6). -/
def volumeMax : Nat := 4294967295

/-- Saturation of a volume or pulse count. -/
def sat (n : Nat) : Nat := min n volumeMax

/-- The codes 1 to 16 of the cause table (R183). -/
def Cause.code : Cause → Nat
  | .driverStop => 1 | .hostHold => 2 | .emergencyStop => 3 | .safetyPermissive => 4
  | .permissive => 5 | .noFlow => 6 | .flowHigh => 7 | .ratioDeviation => 8
  | .additiveFail => 9 | .additiveLag => 10 | .supplyLow => 11 | .probeFault => 12
  | .headerPressure => 13 | .leakBy => 14 | .linkLost => 15 | .overrun => 16

/-- The place of a code in the table, from 0. -/
def Cause.index : Cause → Fin 16
  | .driverStop => 0 | .hostHold => 1 | .emergencyStop => 2 | .safetyPermissive => 3
  | .permissive => 4 | .noFlow => 5 | .flowHigh => 6 | .ratioDeviation => 7
  | .additiveFail => 8 | .additiveLag => 9 | .supplyLow => 10 | .probeFault => 11
  | .headerPressure => 12 | .leakBy => 13 | .linkLost => 14 | .overrun => 15

/-- Every cause, in code order. -/
def allCauses : List Cause :=
  [.driverStop, .hostHold, .emergencyStop, .safetyPermissive, .permissive, .noFlow, .flowHigh,
   .ratioDeviation, .additiveFail, .additiveLag, .supplyLow, .probeFault, .headerPressure, .leakBy,
   .linkLost, .overrun]

/-- The default class of a code (R183). -/
def Cause.default : Cause → Cls
  | .driverStop | .hostHold => .hold
  | .emergencyStop | .safetyPermissive | .leakBy => .trip
  | .permissive | .noFlow | .flowHigh | .ratioDeviation | .additiveFail | .headerPressure => .hold
  | .additiveLag | .supplyLow | .probeFault | .linkLost | .overrun => .note

/-- The classes allowed for a code (R183); a fixed code allows its default alone. -/
def Cause.allowed : Cause → List Cls
  | .driverStop | .hostHold => [.hold]
  | .emergencyStop | .safetyPermissive | .leakBy => [.trip]
  | .permissive | .noFlow | .headerPressure => [.hold, .endC, .trip]
  | .flowHigh | .ratioDeviation | .additiveFail | .supplyLow | .probeFault | .linkLost =>
      [.note, .hold, .endC]
  | .additiveLag => [.note, .hold]
  | .overrun => [.note]

/-- The condition-based codes (R183, R190). -/
def Cause.conditionBased : Cause → Bool
  | .permissive | .supplyLow | .probeFault | .headerPressure => true
  | _ => false

/-- The cause table as it leaves the factory (R183). -/
def factoryCauses : Vector Cls 16 := Vector.ofFn fun i => (allCauses.getD i .overrun).default

/-- The place of a source in the table of section 10.3, from 0. -/
def Source.index : Source → Fin 8
  | .loadEnded => 0 | .loadHeld => 1 | .notice => 2 | .armLocked => 3 | .laneShut => 4
  | .recipeRemoved => 5 | .admissionWait => 6 | .powerRestored => 7

/-- Every source, in the order of the table of section 10.3. -/
def allSources : List Source :=
  [.loadEnded, .loadHeld, .notice, .armLocked, .laneShut, .recipeRemoved, .admissionWait,
   .powerRestored]

/-- The live state of a meter channel after power restore (R91). -/
def Meter.fresh (m : Meter) : Meter :=
  { m with tHist := [], tAvg := 150, probe := .waiting, window := 0, residue := 0, qHist := [],
           qAvg := 0, high := false }

/-- A meter channel with the factory settings of Table 4.1 and the live state of R91. -/
def factoryMeter : Meter :=
  { k := 100000, mf := 10000, beta := 0, tDepth := 2, qDepth := 1, tHist := [], tAvg := 150,
    probe := .waiting, window := 0, residue := 0, qHist := [], qAvg := 0, high := false }

/-- The live state of an injector channel after power restore, with the input levels read then
(R178). -/
def Injector.fresh (proof : Contact) (low : Bool) (j : Injector) : Injector :=
  { j with state := .idle, pulseTimer := none, proofTimer := none, strokeLoad := none,
           lagWatch := .armed, catchUp := 0, proofIn := proof, supplyLow := low }

/-- An injector channel with the factory settings of Table 8.1 and the live state of R178, its inputs
open (DESIGN CHOICE for the input levels, notes/assumptions/2.md). -/
def factoryInjector : Injector :=
  { addId := 1, stroke := 1000, width := 200, proofTo := 1000, supplyUsed := false, state := .idle,
    pulseTimer := none, proofTimer := none, strokeLoad := none, lagWatch := .armed, catchUp := 0,
    proofIn := .opened, supplyLow := false }

/-- A fresh flow state (R123). -/
def FlowState.fresh : FlowState :=
  { started := false, limit := 0, rate := 0, qDem := 0, q := 0, qBase := 0, qEth := 0,
    resumeVol := 0, flushQty := 0, flushStart := 0, settleTimer := none, maxTimer := none,
    lastSettle := none, settleComplete := false, overrun := 0, noFlowBase := none,
    noFlowEth := none }

/-- An arm that is not commissioned, as the module leaves the factory (R51, R73), its permissive inputs
open (DESIGN CHOICE for the input levels, notes/assumptions/2.md). -/
def factoryArm : Arm :=
  { defn := none, locked := false, lockRecord := none, strayBase := 0, strayEth := 0, strayVol := 0,
    leakWatch := .armed, levels := Vector.replicate 8 .opened, permissive := none, latched := [],
    flow := FlowState.fresh, valveBase := 0, valveEth := 0, endStage := .none,
    endReported := false }

/-- A lane as the module leaves the factory (R61), its emergency-stop input released (DESIGN CHOICE,
notes/assumptions/2.md). -/
def factoryLane : Lane := { shut := false, shutCause := none, emergency := false }

/-- The header as the module leaves the factory (Table 7.1, R158), its pressure input open (DESIGN
CHOICE, notes/assumptions/2.md). -/
def factoryHeader : Header :=
  { cap := 600, pressureUsed := false, input := .opened, lost := false, parts := [], queue := [] }

/-- A component account of a new record (R18). -/
def Account.zero : Account := { pulses := 0, gross := 0, net := 0, carry := 0, temp := 150, closed := 0 }

/-- The definition read where a load's arm has none; no run reaches it, since the arm of a record in its
queue stays commissioned (R54, R57). -/
def noArmDef : ArmDef :=
  { lane := 0, baseMeter := 0, ethMeter := none, injectors := [], qMax := 0, fsBase := 0, fsEth := 0,
    sMax := 0, eMin := 0, w := 0, a := 0, settle := 0, maxSettle := 0, noFlow := 0, rstFlow := 0,
    rstVol := 0, leak := 0, resLimit := 0, devCount := 0, tMin := 0, lag := 0, catchUp := 0,
    perms := Vector.replicate 8 none }

/-- The recipe read where a load's recipe is not in the table; no run reaches it for a load that is not
ENDED (R40). -/
def noRecipe : Recipe :=
  { code := 0, rev := 0, name := none, r := 0, tol := 0, flush := 0, h := 0, profile := [],
    adds := [], retiring := false, refs := 0 }

end Sys2Proof.Machine
end

