-- ==== Sys2Proof/Machine/Text.lean ====
section
/-! DEFINITION. Text on the link: numbers, lists, names, the check digits, frames and tokens (R199, R200),
and how each value is written in a response (R27, R42, R58, R60, R78, R147, R163, R181, R185, R202). -/

namespace Sys2Proof.Machine

/-! ### Numbers and lists -/

/-- A number in decimal digits. -/
def numText (n : Nat) : Chars := Nat.toDigits 10 n

/-- A signed number: a hyphen before the digits of a negative one (DEDUCED, notes/assumptions/3.md). -/
def intText : Int → Chars
  | .ofNat n => numText n
  | .negSucc n => '-' :: numText (n + 1)

/-- Two decimal digits (the address part of a frame, section 10.1). -/
def twoDigits (n : Nat) : Chars := [Nat.digitChar (n / 10 % 10), Nat.digitChar (n % 10)]

def isDecimal (c : Char) : Bool := decide ('0' ≤ c) && decide (c ≤ '9')

/-- The value of a text of decimal digits; none for any other text, the empty one included. -/
def num? (t : Chars) : Option Nat :=
  if !t.isEmpty && t.all isDecimal then
    some (t.foldl (fun n c => 10 * n + (c.toNat - '0'.toNat)) 0)
  else none

/-- The parts of a text between the occurrences of one character. -/
def splitAtChar (c : Char) : Chars → List Chars
  | [] => [[]]
  | x :: xs =>
    if x = c then [] :: splitAtChar c xs
    else match splitAtChar c xs with
      | [] => [[x]]
      | w :: ws => (x :: w) :: ws

/-- Texts joined by one character. -/
def joinWith (c : Char) : List Chars → Chars
  | [] => []
  | [w] => w
  | w :: ws => w ++ c :: joinWith c ws

/-- A list in a response: its members separated by commas, and "-" when it is empty (R27). -/
def listText (l : List Chars) : Chars := if l.isEmpty then ['-'] else joinWith ',' l

/-- An optional value, "-" when absent. -/
def dash : Option Chars → Chars
  | some t => t
  | none => ['-']

def yesNo (b : Bool) : Chars := if b then "YES".toList else "NO".toList
def onOff (b : Bool) : Chars := if b then "ON".toList else "OFF".toList

/-! ### Names -/

def meterText (m : MeterId) : Chars := 'M' :: numText (m.val + 1)
def injText (j : InjId) : Chars := 'J' :: numText (j.val + 1)
def armText (a : ArmId) : Chars := numText (a.val + 1)
def laneText (l : LaneId) : Chars := numText (l.val + 1)

def contactText : Contact → Chars
  | .opened => "OPEN".toList
  | .closed => "CLOSED".toList

def speedText : Speed → Chars
  | .b19200 => "19200".toList
  | .b38400 => "38400".toList
  | .b115200 => "115200".toList

def LoadState.text : LoadState → Chars
  | .authorized => "AUTHORIZED".toList
  | .admitting => "ADMITTING".toList
  | .flowing => "FLOWING".toList
  | .held => "HELD".toList
  | .ending => "ENDING".toList
  | .settling => "SETTLING".toList
  | .ended => "ENDED".toList

def Phase.text : Phase → Chars
  | .body => "BODY".toList
  | .flush => "FLUSH".toList

def AdmitFrom.text : AdmitFrom → Chars
  | .start => "START".toList
  | .resume => "RESUME".toList

def PendingOutcome.text : PendingOutcome → Chars
  | .short => "SHORT".toList
  | .tripped => "TRIPPED".toList

def LoadOutcome.text : LoadOutcome → Chars
  | .complete => "COMPLETE".toList
  | .short => "SHORT".toList
  | .tripped => "TRIPPED".toList
  | .interrupted => "INTERRUPTED".toList

def EthVerdict.text : EthVerdict → Chars
  | .inSpec => "IN_SPEC".toList
  | .offSpec => "OFF_SPEC".toList
  | .notDelivered => "NOT_DELIVERED".toList

def AddVerdict.text : AddVerdict → Chars
  | .inSpec => "IN_SPEC".toList
  | .offSpec => "OFF_SPEC".toList

def Cls.text : Cls → Chars
  | .note => "NOTE".toList
  | .hold => "HOLD".toList
  | .endC => "END".toList
  | .trip => "TRIP".toList

/-- The names of R183. A cause is written by its name wherever a response carries one (DEDUCED from the
worked sequences, notes/assumptions/3.md). -/
def Cause.text : Cause → Chars
  | .driverStop => "DRIVER_STOP".toList
  | .hostHold => "HOST_HOLD".toList
  | .emergencyStop => "EMERGENCY_STOP".toList
  | .safetyPermissive => "SAFETY_PERMISSIVE".toList
  | .permissive => "PERMISSIVE".toList
  | .noFlow => "NO_FLOW".toList
  | .flowHigh => "FLOW_HIGH".toList
  | .ratioDeviation => "RATIO_DEVIATION".toList
  | .additiveFail => "ADDITIVE_FAIL".toList
  | .additiveLag => "ADDITIVE_LAG".toList
  | .supplyLow => "SUPPLY_LOW".toList
  | .probeFault => "PROBE_FAULT".toList
  | .headerPressure => "HEADER_PRESSURE".toList
  | .leakBy => "LEAK_BY".toList
  | .linkLost => "LINK_LOST".toList
  | .overrun => "OVERRUN".toList

def StopCode.text : StopCode → Chars
  | .endRequest => "END_REQUEST".toList
  | .cause c => c.text

/-- A cause's detail, "-" for a cause without one (R188). -/
def Detail.text : Detail → Chars
  | .none => ['-']
  | .lane l => laneText l
  | .input k => numText k.val
  | .meter m => meterText m
  | .injector j => injText j
  | .shortOf => "SHORT".toList
  | .excess => "EXCESS".toList
  | .litres n => numText n

def Watch.text : Watch → Chars
  | .armed => "ARMED".toList
  | .raised => "RAISED".toList

def Probe.text : Probe → Chars
  | .waiting => "WAITING".toList
  | .good => "GOOD".toList
  | .fault => "FAULT".toList

def ChanState.text : ChanState → Chars
  | .idle => "IDLE".toList
  | .firing => "FIRING".toList
  | .awaitProof => "AWAIT_PROOF".toList

def Source.text : Source → Chars
  | .loadEnded => "LOAD_ENDED".toList
  | .loadHeld => "LOAD_HELD".toList
  | .notice => "NOTICE".toList
  | .armLocked => "ARM_LOCKED".toList
  | .laneShut => "LANE_SHUT".toList
  | .recipeRemoved => "RECIPE_REMOVED".toList
  | .admissionWait => "ADMISSION_WAIT".toList
  | .powerRestored => "POWER_RESTORED".toList

def Code.text : Code → Chars
  | .unknown => "UNKNOWN".toList
  | .format => "FORMAT".toList
  | .range => "RANGE".toList
  | .notCommissioned => "NOT_COMMISSIONED".toList
  | .noEthanolMeter => "NO_ETHANOL_METER".toList
  | .noInjector => "NO_INJECTOR".toList
  | .duplicate => "DUPLICATE".toList
  | .tableFull => "TABLE_FULL".toList
  | .queueFull => "QUEUE_FULL".toList
  | .recipeTableFull => "RECIPE_TABLE_FULL".toList
  | .noSuchLoad => "NO_SUCH_LOAD".toList
  | .noSuchRecipe => "NO_SUCH_RECIPE".toList
  | .recipeRetiring => "RECIPE_RETIRING".toList
  | .inUse => "IN_USE".toList
  | .wrongState => "WRONG_STATE".toList
  | .tooLate => "TOO_LATE".toList
  | .unreachable => "UNREACHABLE".toList
  | .calOpen => "CAL_OPEN".toList
  | .armLocked => "ARM_LOCKED".toList
  | .laneShut => "LANE_SHUT".toList
  | .bound => "BOUND".toList
  | .stillHeld => "STILL_HELD".toList

/-- A recipe's state as R42 to R44 write it. -/
def recipeStateText (retiring : Bool) : Chars :=
  if retiring then "RETIRING".toList else "ACTIVE".toList

/-! ### The check digits (section 10.1 item 3) -/

/-- One bit of the generator x^16 + x^12 + x^5 + 1. -/
def crcBit (r : BitVec 16) : BitVec 16 :=
  if r.msb then (r <<< 1) ^^^ 0x1021#16 else r <<< 1

/-- One character, its eight bits most significant first. -/
def crcChar (r : BitVec 16) (c : Char) : BitVec 16 :=
  crcBit (crcBit (crcBit (crcBit (crcBit (crcBit (crcBit (crcBit
    (r ^^^ (BitVec.ofNat 16 c.toNat <<< 8)))))))))

/-- The CRC-16 of a text: the register starts at all ones and is not inverted at the end. -/
def crc16 (t : Chars) : BitVec 16 := t.foldl crcChar 0xFFFF#16

/-- A hexadecimal digit, in capitals. -/
def hexChar (n : Nat) : Char :=
  ("0123456789ABCDEF".toList).getD n '0'

/-- The four check digits, most significant first. -/
def checkDigits (r : BitVec 16) : Chars :=
  [hexChar (r.toNat / 4096 % 16), hexChar (r.toNat / 256 % 16), hexChar (r.toNat / 16 % 16),
   hexChar (r.toNat % 16)]

/-- The value of a hexadecimal digit, in upper or lower case. -/
def hexValue? (c : Char) : Option Nat :=
  if isDecimal c then some (c.toNat - '0'.toNat)
  else if decide ('A' ≤ c) && decide (c ≤ 'F') then some (c.toNat - 'A'.toNat + 10)
  else if decide ('a' ≤ c) && decide (c ≤ 'f') then some (c.toNat - 'a'.toNat + 10)
  else none

/-- The value of a text of hexadecimal digits. -/
def hexNum? (t : Chars) : Option Nat :=
  t.foldl (fun acc c => match acc, hexValue? c with
    | some n, some d => some (16 * n + d)
    | _, _ => none) (some 0)

/-! ### Frames -/

/-- The characters between the start character and the carriage return: address, body, check. -/
def frameInside (address : Nat) (body : Chars) : Chars :=
  (twoDigits address ++ body) ++ checkDigits (crc16 (twoDigits address ++ body))

/-- A whole frame, request or response (R199). -/
def frameText (address : Nat) (body : Chars) : Chars :=
  '@' :: (frameInside address body ++ ['\r'])

/-- The tests of R199(c) on a completed frame, given between its start character and its carriage
return; the body of a frame that passes them. -/
def frameBody? (address : Nat) (inside : Chars) : Option Chars :=
  let covered := inside.take (inside.length - 4)
  let check := inside.drop (inside.length - 4)
  if inside.length < 6 then none
  else if !(covered.take 2).all isDecimal then none
  else if hexNum? check != some (crc16 covered).toNat then none
  else if num? (covered.take 2) != some address then none
  else some (covered.drop 2)

/-- The tokens of a body: its parts between spaces (R200, section 10.1). -/
def tokens (body : Chars) : List Chars := (splitAtChar ' ' body).filter (fun t => !t.isEmpty)

/-- The body of a response (R200). -/
def Response.body : Response → Chars
  | .ok fields => "OK".toList ++ (fields.map fun f => ' ' :: (f.1 ++ '=' :: f.2)).flatten
  | .okWord word => "OK ".toList ++ word
  | .no code => "NO ".toList ++ code.text

/-- The frame the module sends. -/
def Sending.frame (x : Sending) : Chars := frameText x.address x.response.body

/-! ### Record fields -/

/-- A component account (R27): pulses,gross,net,carry,temperature. -/
def Account.text (c : Account) : Chars :=
  joinWith ',' [numText c.pulses, numText c.gross, numText c.net, numText c.carry, intText c.temp]

/-- An additive entry (R27), its verdict last where it has one. -/
def AddEntry.text (e : AddEntry) : Chars :=
  joinWith ',' ([numText e.id, numText e.dose, numText e.tol, injText e.inj, numText e.due,
    numText e.fired, numText e.proven, numText e.missed, numText e.consec] ++
    (match e.verdict with | some x => [x.text] | none => []))

/-- A stop record (R27): cause,class,detail,state,phase,V. -/
def StopRecord.text (r : StopRecord) : Chars :=
  joinWith ',' [r.code.text, r.cls.text, r.detail.text, r.state.text, dash (r.phase.map Phase.text),
    numText r.v]

/-- A profile step as STORE_RECIPE carries it (R42(d)), its numbers without leading zeros (DEDUCED,
notes/assumptions/27.md). -/
def Step.text (x : Step) : Chars :=
  joinWith ',' [match x.kind with | .del => "DEL".toList | .rem => "REM".toList,
    numText x.vol, numText x.limit, numText x.rate]

/-- A recipe's additive entry as STORE_RECIPE carries it (R42(d)), its numbers without leading zeros (DEDUCED,
notes/assumptions/27.md). -/
def RecipeAdd.text (x : RecipeAdd) : Chars :=
  joinWith ',' [numText x.id, numText x.dose, numText x.tol]

/-- A permissive entry as SET_ARM carries it, "-" for an unused input (R58). -/
def permText : Option PermUse → Chars
  | none => ['-']
  | some u => joinWith ',' [contactText u.level,
      if u.safety then "SAFETY".toList else "PLAIN".toList]

/-- A numbered keyword, such as STEP1. -/
def keyN (k : Chars) (n : Nat) : Chars := k ++ numText n

/-- A field of a response. -/
def field (k : String) (v : Chars) : Field := (k.toList, v)

/-- The fields `k`1, `k`2, … for the members of a list. -/
def numberedFields (k : String) (l : List Chars) : List Field :=
  l.zipIdx.map fun x => (keyN k.toList (x.2 + 1), x.1)

end Sys2Proof.Machine
end

