-- ==== Sys2Proof/Machine/Operands.lean ====
section
/-! DEFINITION. The fields of the requests: the form and range checks each rule makes before the state of
the module is looked at. A parser answers the request's arguments, or the refusal code (FORMAT or RANGE)
of the first check that fails. -/

namespace Sys2Proof.Machine

abbrev Fields := List (Chars × Chars)

/-! ### Form -/

/-- A token as a field (R200(b)): one "=", with at least one character before it and after it. -/
def fieldOf? (t : Chars) : Option (Chars × Chars) :=
  match splitAtChar '=' t with
  | [k, v] => if k.isEmpty || v.isEmpty then none else some (k, v)
  | _ => none

/-- The fields of a request's tokens; none where a token is no field. -/
def fieldsOf? : List Chars → Option Fields
  | [] => some []
  | t :: ts =>
    match fieldOf? t, fieldsOf? ts with
    | some f, some fs => some (f :: fs)
    | _, _ => none

/-- How often a keyword is present. -/
def Fields.count (fs : Fields) (k : Chars) : Nat := (fs.filter fun f => f.1 == k).length

/-- The value of a keyword. -/
def Fields.value (fs : Fields) (k : Chars) : Option Chars := (fs.find? fun f => f.1 == k).map (·.2)

/-- Every required keyword once, every optional one at most once, and no other keyword. -/
def Fields.formed (fs : Fields) (required optional : List Chars) : Bool :=
  required.all (fun k => fs.count k == 1) && optional.all (fun k => decide (fs.count k ≤ 1)) &&
    fs.all fun f => (required ++ optional).contains f.1

/-- The fields of a request that has the keywords its rule allows, else FORMAT. -/
def readFields (required optional : List String) (tokens : List Chars) : Except Code Fields :=
  match fieldsOf? tokens with
  | none => .error .format
  | some fs =>
    if fs.formed (required.map String.toList) (optional.map String.toList) then .ok fs
    else .error .format

/-- A required number: FORMAT where it is not in decimal digits. -/
def Fields.num (fs : Fields) (k : String) : Except Code Nat :=
  match (fs.value k.toList).bind num? with
  | some n => .ok n
  | none => .error .format

/-- An optional number. -/
def Fields.numOpt (fs : Fields) (k : String) : Except Code (Option Nat) :=
  match fs.value k.toList with
  | none => .ok none
  | some t => match num? t with
    | some n => .ok (some n)
    | none => .error .format

/-- An optional value that must be one of two words; `true` is the first. -/
def Fields.wordOpt (fs : Fields) (k yes no : String) : Except Code (Option Bool) :=
  match fs.value k.toList with
  | none => .ok none
  | some t =>
    if t = yes.toList then .ok (some true)
    else if t = no.toList then .ok (some false)
    else .error .format

/-- The channel number of a value written as a letter followed by digits. -/
def channelNum? (letter : Char) : Chars → Option Nat
  | [] => none
  | c :: ds => if c = letter then num? ds else none

/-- A required channel, by its number. -/
def Fields.channel (fs : Fields) (k : String) (letter : Char) : Except Code Nat :=
  match (fs.value k.toList).bind (channelNum? letter) with
  | some n => .ok n
  | none => .error .format

/-- Values in a list, each read by one reader; none where a reader fails. -/
def readAll {α : Type} (f : Chars → Option α) : List Chars → Option (List α)
  | [] => some []
  | t :: ts =>
    match f t, readAll f ts with
    | some x, some xs => some (x :: xs)
    | _, _ => none

/-! ### Range -/

/-- `n` within `lo` … `hi`. -/
def within (lo hi n : Nat) : Bool := decide (lo ≤ n) && decide (n ≤ hi)

/-- An optional value within a range. -/
def withinOpt (lo hi : Nat) (n : Option Nat) : Bool := n.all (within lo hi)

/-- RANGE where a check fails. -/
def inRange (ok : Bool) : Except Code Unit := if ok then .ok () else .error .range

/-- FORMAT where a check fails. -/
def inForm (ok : Bool) : Except Code Unit := if ok then .ok () else .error .format

/-- A number 1 … n as an identifier held from 0; RANGE outside. -/
def toId (n : Nat) (k : Nat) : Except Code (Fin n) :=
  if h : 1 ≤ k ∧ k ≤ n then .ok ⟨k - 1, by omega⟩ else .error .range

/-- A printable character other than space and "=" (Table 1.1). -/
def tagChar (c : Char) : Bool := decide ('!' ≤ c) && decide (c ≤ '~') && c != '='

/-- A printable character other than space, "=" and "," (Table 2.1). -/
def nameChar (c : Char) : Bool := tagChar c && c != ','

/-! ### Load requests -/

/-- The arguments of AUTHORIZE. -/
structure AuthorizeArgs where
  load   : Nat
  arm    : ArmId
  recipe : Nat
  preset : Nat
  tag    : Option Chars
deriving DecidableEq, Repr

/-- R17, checks 1 and 2. -/
def parseAuthorize (ts : List Chars) : Except Code AuthorizeArgs := do
  let fs ← readFields ["LOAD", "ARM", "RECIPE", "PRESET"] ["TAG"] ts
  let load ← fs.num "LOAD"
  let arm ← fs.num "ARM"
  let recipe ← fs.num "RECIPE"
  let preset ← fs.num "PRESET"
  let tag := fs.value "TAG".toList
  inRange (within 1 999999 load)
  let a ← toId 8 arm
  inRange (within 1 999 recipe)
  inRange (within 100 60000 preset)
  inRange (tag.all fun t => within 1 16 t.length && t.all tagChar)
  return { load := load, arm := a, recipe := recipe, preset := preset, tag := tag }

/-- The arguments of AMEND. -/
structure AmendArgs where
  load   : Nat
  preset : Nat
deriving DecidableEq, Repr

/-- R19, items (a) and (b). -/
def parseAmend (ts : List Chars) : Except Code AmendArgs := do
  let fs ← readFields ["LOAD", "PRESET"] [] ts
  let load ← fs.num "LOAD"
  let preset ← fs.num "PRESET"
  inRange (within 1 999999 load)
  inRange (within 100 60000 preset)
  return { load := load, preset := preset }

/-- The form and range checks of the requests that carry LOAD alone (R23 to R28). -/
def parseLoad (ts : List Chars) : Except Code Nat := do
  let fs ← readFields ["LOAD"] [] ts
  let load ← fs.num "LOAD"
  inRange (within 1 999999 load)
  return load

/-- The check of a request that carries no fields (R4, R43, R147, R185, R202, R208 to R210). -/
def parseNothing (ts : List Chars) : Except Code Unit := inForm ts.isEmpty

/-! ### Recipe requests -/

/-- The checks of R42(a), (b) and R44. A code not in decimal digits is FORMAT, as for every number
(DEDUCED, notes/assumptions/4.md). -/
def parseCode (ts : List Chars) : Except Code Nat := do
  let fs ← readFields ["CODE"] [] ts
  let code ← fs.num "CODE"
  inRange (within 1 999 code)
  return code

/-- A profile step value (R33(g)). -/
def stepOf? (t : Chars) : Option Step :=
  match splitAtChar ',' t with
  | [kind, x, limit, rate] =>
    match num? x, num? limit, num? rate with
    | some x, some limit, some rate =>
      if kind = "DEL".toList then some { kind := .del, vol := x, limit := limit, rate := rate }
      else if kind = "REM".toList then some { kind := .rem, vol := x, limit := limit, rate := rate }
      else none
    | _, _, _ => none
  | _ => none

/-- An additive value (R33(h)). -/
def recipeAddOf? (t : Chars) : Option RecipeAdd :=
  match splitAtChar ',' t with
  | [i, d, tol] =>
    match num? i, num? d, num? tol with
    | some i, some d, some tol => some { id := i, dose := d, tol := tol }
    | _, _, _ => none
  | _ => none

/-- The values of the keywords `k`1 … `k`n that are present, in number order; none where they leave a
gap (R33(c), (d)). -/
def Fields.numbered (fs : Fields) (k : Chars) (n : Nat) : Option (List Chars) :=
  let values := (List.range n).map fun i => fs.value (keyN k (i + 1))
  let present := values.takeWhile Option.isSome
  if (values.drop present.length).all Option.isNone then some (present.filterMap id) else none

/-- The keywords of STORE_RECIPE that need not be present. -/
def storeOptional : List String :=
  ["NAME", "TOL", "H", "STEP2", "STEP3", "STEP4", "STEP5", "STEP6", "STEP7", "STEP8",
   "ADD1", "ADD2", "ADD3", "ADD4"]

/-- The profile checks of R34(b). -/
def profileOk (l : List Step) : Bool :=
  l.all (fun x => within 0 60000 x.vol && within 0 4000 x.limit && within 0 2000 x.rate) &&
    (match l with
     | [] => false
     | x :: _ => x.kind == .del && x.vol == 0 && decide (1 ≤ x.limit))

/-- The additive checks of R35. -/
def recipeAddsOk (l : List RecipeAdd) : Bool :=
  l.all (fun x => within 1 16 x.id && within 1 2000 x.dose && within 1 20 x.tol) &&
    decide (l.map (·.id)).Nodup

/-- R33 to R35: the recipe a STORE_RECIPE carries, at revision 0, ACTIVE and unused, with the defaults of
Table 2.1. -/
def parseStore (ts : List Chars) : Except Code Recipe := do
  let fs ← readFields ["CODE", "R", "FLUSH", "STEP1"] storeOptional ts
  let code ← fs.num "CODE"
  let r ← fs.num "R"
  let flush ← fs.num "FLUSH"
  let tol ← fs.numOpt "TOL"
  let h ← fs.numOpt "H"
  let name := fs.value "NAME".toList
  let stepTexts ← (fs.numbered "STEP".toList 8).elim (.error .format) .ok
  let steps ← (readAll stepOf? stepTexts).elim (.error .format) .ok
  let addTexts ← (fs.numbered "ADD".toList 4).elim (.error .format) .ok
  let adds ← (readAll recipeAddOf? addTexts).elim (.error .format) .ok
  inRange (within 1 999 code)
  inRange (name.all fun t => within 1 12 t.length && t.all nameChar)
  inRange (within 0 3000 r)
  inRange (within 10 200 (tol.getD 50))
  inRange (within 0 500 flush)
  inRange (within 50 2000 (h.getD 400))
  inRange (profileOk steps)
  inRange (recipeAddsOk adds)
  return { code := code, rev := 0, name := name, r := r, tol := tol.getD 50, flush := flush,
           h := h.getD 400, profile := steps, adds := adds, retiring := false, refs := 0 }

/-! ### Arm and lane requests -/

/-- The form and range checks of the requests that carry ARM alone (R57, R58, R60, R62, R181). -/
def parseArm (ts : List Chars) : Except Code ArmId := do
  let fs ← readFields ["ARM"] [] ts
  let arm ← fs.num "ARM"
  toId 8 arm

/-- R63(a). -/
def parseLane (ts : List Chars) : Except Code LaneId := do
  let fs ← readFields ["LANE"] [] ts
  let lane ← fs.num "LANE"
  toId 4 lane

/-- A permissive value (R52(f)). -/
def permOf? (t : Chars) : Option PermUse :=
  match splitAtChar ',' t with
  | [level, kind] =>
    let safety : Option Bool :=
      if kind = "SAFETY".toList then some true
      else if kind = "PLAIN".toList then some false else none
    let l : Option Contact :=
      if level = "CLOSED".toList then some .closed
      else if level = "OPEN".toList then some .opened else none
    match l, safety with
    | some l, some k => some { level := l, safety := k }
    | _, _ => none
  | _ => none

/-- An optional permissive entry. -/
def Fields.perm (fs : Fields) (k : String) : Except Code (Option PermUse) :=
  match fs.value k.toList with
  | none => .ok none
  | some t => match permOf? t with
    | some u => .ok (some u)
    | none => .error .format

/-- An optional channel, by its number. -/
def Fields.channelOpt (fs : Fields) (k : String) (letter : Char) : Except Code (Option Nat) :=
  match fs.value k.toList with
  | none => .ok none
  | some t => match channelNum? letter t with
    | some n => .ok (some n)
    | none => .error .format

/-- The keywords of SET_ARM that need not be present (Table 3.1). -/
def armOptional : List String :=
  ["EMETER", "INJ", "QMAX", "FSB", "FSE", "SMAX", "EMIN", "W", "A", "SETTLE", "MAXSETTLE", "NOFLOW",
   "RSTFLOW", "RSTVOL", "LEAK", "RESLIMIT", "DEVCOUNT", "TMIN", "LAG", "CATCHUP", "PERM0", "PERM1",
   "PERM2", "PERM3", "PERM4", "PERM5", "PERM6", "PERM7"]

/-- Numbers as identifiers held from 0; RANGE where one is outside. -/
def toIds (n : Nat) : List Nat → Except Code (List (Fin n))
  | [] => .ok []
  | k :: ks => do
    let i ← toId n k
    let is ← toIds n ks
    return i :: is

/-- The arguments of SET_ARM. -/
structure ArmArgs where
  arm  : ArmId
  defn : ArmDef
deriving DecidableEq, Repr

/-- R52 and R53, with the defaults of Table 3.1. -/
def parseSetArm (ts : List Chars) : Except Code ArmArgs := do
  let fs ← readFields ["ARM", "LANE", "BMETER"] armOptional ts
  let arm ← fs.num "ARM"
  let lane ← fs.num "LANE"
  let bm ← fs.channel "BMETER" 'M'
  let em ← fs.channelOpt "EMETER" 'M'
  let injTexts := (fs.value "INJ".toList).elim [] (splitAtChar ',')
  let injs ← (readAll (channelNum? 'J') injTexts).elim (.error .format) .ok
  let qMax ← fs.numOpt "QMAX"
  let fsb ← fs.numOpt "FSB"
  let fse ← fs.numOpt "FSE"
  let sMax ← fs.numOpt "SMAX"
  let eMin ← fs.numOpt "EMIN"
  let w ← fs.numOpt "W"
  let ca ← fs.numOpt "A"
  let settle ← fs.numOpt "SETTLE"
  let maxSettle ← fs.numOpt "MAXSETTLE"
  let noFlow ← fs.numOpt "NOFLOW"
  let rstFlow ← fs.numOpt "RSTFLOW"
  let rstVol ← fs.numOpt "RSTVOL"
  let leak ← fs.numOpt "LEAK"
  let resLimit ← fs.numOpt "RESLIMIT"
  let devCount ← fs.numOpt "DEVCOUNT"
  let tMin ← fs.numOpt "TMIN"
  let lag ← fs.numOpt "LAG"
  let catchUp ← fs.numOpt "CATCHUP"
  let p0 ← fs.perm "PERM0"
  let p1 ← fs.perm "PERM1"
  let p2 ← fs.perm "PERM2"
  let p3 ← fs.perm "PERM3"
  let p4 ← fs.perm "PERM4"
  let p5 ← fs.perm "PERM5"
  let p6 ← fs.perm "PERM6"
  let p7 ← fs.perm "PERM7"
  let armId ← toId 8 arm
  let laneId ← toId 4 lane
  let bmId ← toId 16 bm
  let emIds ← toIds 16 em.toList
  let injIds ← toIds 12 injs
  inRange (decide (injIds.length ≤ 4) && decide injIds.Nodup)
  let q := qMax.getD 2400
  let rf := rstFlow.getD (min 500 q)
  inRange (within 100 4000 q && withinOpt 100 4000 fsb && withinOpt 100 4000 fse)
  inRange (withinOpt 0 4000 sMax && withinOpt 5 500 eMin && withinOpt 2 50 w && withinOpt 0 100 ca)
  inRange (withinOpt 1 10 settle && withinOpt 10 120 maxSettle && withinOpt 2 60 noFlow)
  inRange (withinOpt 0 500 rstVol && withinOpt 1 200 leak && withinOpt 0 15 resLimit)
  inRange (withinOpt 1 20 devCount && withinOpt 1 50 tMin && withinOpt 1 10 lag && withinOpt 0 5 catchUp)
  inRange (within 100 q rf)
  return {
    arm := armId
    defn :=
      { lane := laneId, baseMeter := bmId, ethMeter := emIds.head?, injectors := injIds, qMax := q,
        fsBase := fsb.getD 3000, fsEth := fse.getD 600, sMax := sMax.getD 2500, eMin := eMin.getD 30,
        w := w.getD 10, a := ca.getD 12, settle := settle.getD 3, maxSettle := maxSettle.getD 30,
        noFlow := noFlow.getD 8, rstFlow := rf, rstVol := rstVol.getD 100, leak := leak.getD 20,
        resLimit := resLimit.getD 5, devCount := devCount.getD 5, tMin := tMin.getD 5,
        lag := lag.getD 4, catchUp := catchUp.getD 2, perms := #v[p0, p1, p2, p3, p4, p5, p6, p7] } }

/-! ### Channel requests -/

/-- The checks of GET_METER (R78). -/
def parseMeter (ts : List Chars) : Except Code MeterId := do
  let fs ← readFields ["CHANNEL"] [] ts
  let m ← fs.channel "CHANNEL" 'M'
  toId 16 m

/-- The arguments of SET_METER. -/
structure MeterArgs where
  meter  : MeterId
  k      : Option Nat
  mf     : Option Nat
  beta   : Option Nat
  tDepth : Option Nat
  qDepth : Option Nat
deriving DecidableEq, Repr

/-- R76, items (a) and (b). -/
def parseSetMeter (ts : List Chars) : Except Code MeterArgs := do
  let fs ← readFields ["CHANNEL"] ["K", "MF", "BETA", "TDEPTH", "QDEPTH"] ts
  let m ← fs.channel "CHANNEL" 'M'
  let k ← fs.numOpt "K"
  let mf ← fs.numOpt "MF"
  let beta ← fs.numOpt "BETA"
  let td ← fs.numOpt "TDEPTH"
  let qd ← fs.numOpt "QDEPTH"
  inForm (decide (2 ≤ fs.length))
  let meter ← toId 16 m
  inRange (withinOpt 1000 2000000 k && withinOpt 9000 11000 mf && withinOpt 0 2000 beta)
  inRange (withinOpt 0 5 td && withinOpt 0 5 qd)
  return { meter := meter, k := k, mf := mf, beta := beta, tDepth := td, qDepth := qd }

/-- The checks of GET_INJECTOR (R163). -/
def parseInjector (ts : List Chars) : Except Code InjId := do
  let fs ← readFields ["CHANNEL"] [] ts
  let j ← fs.channel "CHANNEL" 'J'
  toId 12 j

/-- The arguments of SET_INJECTOR. -/
structure InjectorArgs where
  injector : InjId
  addId    : Option Nat
  stroke   : Option Nat
  width    : Option Nat
  proofTo  : Option Nat
  supply   : Option Bool
deriving DecidableEq, Repr

/-- R161, checks 1 and 2. -/
def parseSetInjector (ts : List Chars) : Except Code InjectorArgs := do
  let fs ← readFields ["CHANNEL"] ["ADDID", "STROKE", "WIDTH", "PROOFTO", "SUPPLY"] ts
  let j ← fs.channel "CHANNEL" 'J'
  let addId ← fs.numOpt "ADDID"
  let stroke ← fs.numOpt "STROKE"
  let width ← fs.numOpt "WIDTH"
  let proofTo ← fs.numOpt "PROOFTO"
  let supply ← fs.wordOpt "SUPPLY" "USED" "UNUSED"
  inForm (decide (2 ≤ fs.length))
  let inj ← toId 12 j
  inRange (withinOpt 1 16 addId && withinOpt 100 10000 stroke)
  inRange (withinOpt 20 2000 width && withinOpt 100 5000 proofTo)
  return { injector := inj, addId := addId, stroke := stroke, width := width, proofTo := proofTo,
           supply := supply }

/-! ### Header, cause and link requests -/

/-- The arguments of SET_HEADER; `pressure` is `some true` for USED. -/
structure HeaderArgs where
  cap      : Option Nat
  pressure : Option Bool
deriving DecidableEq, Repr

/-- R146, checks 1 and 2. -/
def parseSetHeader (ts : List Chars) : Except Code HeaderArgs := do
  let fs ← readFields [] ["CAP", "PRESSURE"] ts
  let cap ← fs.numOpt "CAP"
  let pressure ← fs.wordOpt "PRESSURE" "USED" "UNUSED"
  inForm (decide (1 ≤ fs.length))
  inRange (withinOpt 50 6000 cap)
  return { cap := cap, pressure := pressure }

/-- A class word. -/
def classOf? (t : Chars) : Option Cls := [Cls.note, .hold, .endC, .trip].find? fun c => c.text == t

/-- The cause of a code; RANGE outside 1–16. -/
def causeOf (n : Nat) : Except Code Cause :=
  match allCauses.find? fun c => c.code == n with
  | some c => .ok c
  | none => .error .range

/-- The arguments of SET_CAUSE. -/
structure CauseArgs where
  cause : Cause
  cls   : Cls
deriving DecidableEq, Repr

/-- R184, the three checks. -/
def parseSetCause (ts : List Chars) : Except Code CauseArgs := do
  let fs ← readFields ["CODE", "CLASS"] [] ts
  let n ← fs.num "CODE"
  let cls ← ((fs.value "CLASS".toList).bind classOf?).elim (.error .format) .ok
  let c ← causeOf n
  inRange (c.allowed.contains cls)
  return { cause := c, cls := cls }

/-- A source name. -/
def sourceOf? (t : Chars) : Option Source := allSources.find? fun x => x.text == t

/-- A list of source names, or ALL; RANGE where a name is not one of the eight (R203, R204). -/
def sourcesOf (t : Chars) : Except Code (List Source) :=
  if t = "ALL".toList then .ok allSources
  else (readAll sourceOf? (splitAtChar ',' t)).elim (.error .range) .ok

/-- R203. -/
def parseClearAttention (ts : List Chars) : Except Code (List Source) := do
  let fs ← readFields ["SOURCES"] [] ts
  sourcesOf ((fs.value "SOURCES".toList).getD [])

/-- The arguments of SET_ATTENTION_ENABLE: the sources named with their new enable flag, and the master
enable. -/
structure EnableArgs where
  sources : List Source
  action  : Bool
  master  : Option Bool
deriving DecidableEq, Repr

/-- R204. -/
def parseEnable (ts : List Chars) : Except Code EnableArgs := do
  let fs ← readFields [] ["SOURCES", "ACTION", "MASTER"] ts
  let action ← fs.wordOpt "ACTION" "SET" "CLEAR"
  let master ← fs.wordOpt "MASTER" "ON" "OFF"
  let names := fs.value "SOURCES".toList
  inForm (names.isSome || master.isSome)
  inForm (names.isSome == action.isSome)
  let sources ← names.elim (.ok []) sourcesOf
  return { sources := sources, action := action.getD false, master := master }

/-- R205: the link timeout. -/
def parseTimeout (ts : List Chars) : Except Code Nat := do
  let fs ← readFields ["TIMEOUT"] [] ts
  let n ← fs.num "TIMEOUT"
  inRange (n == 0 || within 5 600 n)
  return n

end Sys2Proof.Machine
end

