-- ==== Sys2Proof/Config.lean ====
section
/-! DEFINITION. What the manual leaves open and the machine goes on with: the free values. -/

namespace Sys2Proof

/-- DESIGN CHOICE (notes/assumptions/1.md). Where several things happen inside one event and the manual
gives no order among them, they are taken in the order of this rank. `Config.rank n k` is the rank of
the `k`-th of them at the `n`-th such choice of the run. It has no body: every statement holds for
every order. -/
opaque Config.rank : Nat → Nat → Nat

end Sys2Proof
end

