-- ==== Sys2Proof/Machine/State.lean ====
section
/-! DEFINITION. The state of the AB-820, the reasons a step may stop, and the state after reset.

Every item the manual names is held once. What it gives as a view of other items is computed where it is
read (Flags.lean): an arm's queue (R3), a channel's binding (R56), the arm condition (R59), the block
valves (R61), the solenoids (R160), the analog outputs (R71), the effective capacity (R148) and the
attention output (R201). -/

namespace Sys2Proof.Machine

/-- The state of the module, and the queue of the commands that wait. -/
structure State where
  /-- Whether supply is present (R206, R207). -/
  powered     : Bool
  /-- The load table, in authorization order (R2). -/
  loads       : List Load
  /-- The recipe table, in code order (R31). -/
  recipes     : List Recipe
  arms        : Vector Arm 8
  lanes       : Vector Lane 4
  /-- The metrology count (R69). -/
  metrology   : Nat
  meters      : Vector Meter 16
  injectors   : Vector Injector 12
  header      : Header
  /-- The class of each code of the cause table (R183). -/
  causes      : Vector Cls 16
  attention   : Attention
  link        : Link
  /-- The level of the calibration switch input (R67). -/
  calibration : Contact
  /-- The model's own: how many free orders have been taken (`Config.rank`). -/
  choices     : Nat
  /-- The model's own: the commands that wait, first in first out. -/
  pending     : List Instr
deriving DecidableEq, Repr

/-- Why the machine stops with a fault. It has no constructor: the manual gives every command an effect
in every state, so no meaning faults. Safe. -/
inductive Fault
deriving DecidableEq, Repr

/-- Why a command is refused by the model (a refusal of the module itself is a response NO). -/
inductive Refusal
  /-- Raised by an arm of `exec` that has no meaning yet; no arm uses it. Safe. -/
  | notModelled (mnemonic : String)
deriving DecidableEq, Repr

/-- The module as it leaves the factory and has its supply for the first time: every table empty, every
setting at its factory default, the live state as at power restore (R31, R51, R61, R69, R74, R91, R141,
R145, R158, R159, R178, R183, R207, R209), POWER_RESTORED pending. Input levels and switch positions:
DESIGN CHOICE (notes/assumptions/2.md). -/
def State.reset : State :=
  { powered := true
    loads := []
    recipes := []
    arms := Vector.replicate 8 factoryArm
    lanes := Vector.replicate 4 factoryLane
    metrology := 0
    meters := Vector.replicate 16 factoryMeter
    injectors := Vector.replicate 12 factoryInjector
    header := factoryHeader
    causes := factoryCauses
    attention :=
      { pending := (Vector.replicate 8 false).set 7 true
        enabled := Vector.replicate 8 true
        master := true }
    link :=
      { switches := { position := 0, speed := .b19200 }
        timeout := 0
        timer := none
        receiving := false
        sending := none }
    calibration := .opened
    choices := 0
    pending := [] }

end Sys2Proof.Machine
end

