-- ==== Sys2Proof/Machine/Flags.lean ====
section
/-! DEFINITION. What is read from the state: the records an event reaches, the flags and outputs the manual
derives from them, and the manual's arithmetic. Nothing here changes the state. -/

namespace Sys2Proof.Machine

/-! ### Arithmetic (00_scope 1.6) -/

/-- "Round half up" of `n / d` (`d` above 0): the nearest integer, an exact half going up. -/
def roundHalfUp (n d : Int) : Int := (2 * n + d) / (2 * d)

/-- "Round half up" on natural numbers. -/
def roundHalfUpNat (n d : Nat) : Nat := (2 * n + d) / (2 * d)

/-- The gross volume of a pulse count, floor(pulses × 100 × MF / K) (R79, R64). -/
def pulseVolume (m : Meter) (pulses : Nat) : Nat := pulses * 100 * m.mf / m.k

/-- The VCF of an expansion coefficient and a temperature (R84). -/
def vcf (beta : Nat) (t : Int) : Int := 1000000 - roundHalfUp (beta * (t - 150)) 10

/-- The mean of temperature samples, rounded half up (R82). -/
def meanHalfUp (l : List Int) : Int := roundHalfUp l.sum l.length

/-- The command of a flow setpoint (R70): round half up of Q × 4095 / q_fs, at most 4095. -/
def valveCommand (q fs : Nat) : Nat := min 4095 (roundHalfUpNat (q * 4095) fs)

/-- The current of an analog output, in mA (R71). -/
def analogOutput (command : Nat) : Rat := 4 + 16 * (command : Rat) / 4095

/-! ### Load states -/

/-- ADMITTING … SETTLING. -/
def LoadState.inProgress : LoadState → Bool
  | .admitting | .flowing | .held | .ending | .settling => true
  | .authorized | .ended => false

/-- ADMITTING … ENDING. -/
def LoadState.preSettling : LoadState → Bool
  | .admitting | .flowing | .held | .ending => true
  | .authorized | .settling | .ended => false

/-- FLOWING or ENDING: the states in which the valves may be open (R131, R133). -/
def LoadState.delivers : LoadState → Bool
  | .flowing | .ending => true
  | .authorized | .admitting | .held | .settling | .ended => false

/-- The states in which interval closes are taken (R103). -/
def LoadState.closes : LoadState → Bool := LoadState.preSettling

/-- FLOWING in phase BODY. -/
def Load.inBody (l : Load) : Bool := l.state == .flowing && l.phase == .body

/-! ### Records reached by an event -/

def State.arm (s : State) (a : ArmId) : Arm := s.arms[a]
def State.lane (s : State) (n : LaneId) : Lane := s.lanes[n]
def State.meter (s : State) (m : MeterId) : Meter := s.meters[m]
def State.injector (s : State) (j : InjId) : Injector := s.injectors[j]

/-- The definition of an arm, `noArmDef` for an arm that is not commissioned. -/
def State.defn (s : State) (a : ArmId) : ArmDef := (s.arm a).defn.getD noArmDef

def State.commissioned (s : State) (a : ArmId) : Bool := (s.arm a).defn.isSome

/-- An arm's queue: its records that are not ENDED, in authorization order (R3). -/
def State.armQueue (s : State) (a : ArmId) : List Load :=
  s.loads.filter fun l => l.arm == a && l.state != .ended

/-- The head load of an arm (R3). -/
def State.head (s : State) (a : ArmId) : Option Load :=
  s.loads.find? fun l => l.arm == a && l.state != .ended

/-- The head load of an arm while it is in ADMITTING … SETTLING. -/
def State.running (s : State) (a : ArmId) : Option Load :=
  (s.head a).filter fun l => l.state.inProgress

/-- Whether the arm's head load is in a state that a test holds of. -/
def State.headIs (s : State) (a : ArmId) (p : LoadState → Bool) : Bool :=
  (s.head a).any fun l => p l.state

/-- The record with a load number. -/
def State.load (s : State) (n : Nat) : Option Load := s.loads.find? fun l => l.number == n

/-- The recipe with a code. -/
def State.recipe (s : State) (c : Nat) : Option Recipe := s.recipes.find? fun r => r.code == c

/-- The recipe of a load (R40). -/
def State.recipeOf (s : State) (l : Load) : Recipe := (s.recipe l.recipe).getD noRecipe

/-- Every arm, in number order. -/
def allArms : List ArmId := List.finRange 8

/-- The lane an arm belongs to; none for an arm that is not commissioned (R51). -/
def State.laneOf (s : State) (a : ArmId) : Option LaneId := (s.arm a).defn.map (·.lane)

/-- The arms of a lane: the commissioned arms whose definition names it (section 3.4). -/
def State.laneArms (s : State) (n : LaneId) : List ArmId :=
  allArms.filter fun a => s.laneOf a == some n

/-- The arm and role a meter channel is bound to (R56). -/
def ArmDef.roleOf (d : ArmDef) (m : MeterId) : Option Role :=
  if d.baseMeter = m then some .base
  else if d.ethMeter = some m then some .ethanol
  else none

def State.meterBinding (s : State) (m : MeterId) : Option (ArmId × Role) :=
  allArms.findSome? fun a => ((s.arm a).defn.bind (·.roleOf m)).map fun r => (a, r)

/-- The arm an injector channel is bound to (R56). -/
def State.injectorArm (s : State) (j : InjId) : Option ArmId :=
  allArms.find? fun a => (s.arm a).defn.any fun d => d.injectors.contains j

/-- The meter of an arm in a role. -/
def ArmDef.meterOf (d : ArmDef) : Role → Option MeterId
  | .base => some d.baseMeter
  | .ethanol => d.ethMeter

def Load.account (l : Load) : Role → Account
  | .base => l.base
  | .ethanol => l.eth

/-! ### Derived flags and outputs -/

/-- The arm condition (R59). -/
inductive Condition
  | idle | active | locked
deriving DecidableEq, Repr

def State.condition (s : State) (a : ArmId) : Condition :=
  if (s.arm a).locked then .locked
  else if s.headIs a LoadState.inProgress then .active
  else .idle

/-- Whether an arm's lane is SHUT; an arm that is not commissioned has no lane (R51). -/
def State.armLaneShut (s : State) (a : ArmId) : Bool :=
  (s.laneOf a).any fun n => (s.lane n).shut

/-- A block-valve output: energized while the lane is NORMAL (R61). -/
def Lane.blockValve (n : Lane) : Bool := !n.shut

/-- A solenoid output: ON exactly while the channel is FIRING (R160). -/
def Injector.solenoid (j : Injector) : Bool := j.state == .firing

/-- Whether every used permissive input stands at its required level (R179). -/
def permissiveSatisfied (d : ArmDef) (levels : Vector Contact 8) : Bool :=
  (List.finRange 8).all fun k => (d.perms[k]).all fun u => levels[k] == u.level

/-- The permissive flag of an arm, derived from its mask and levels (R179); absent while the arm is not
commissioned. -/
def Arm.derivedPermissive (x : Arm) : Option Bool :=
  x.defn.map fun d => permissiveSatisfied d x.levels

/-- The pressure state derived from the setting and the input (R148); `true` is LOST. -/
def pressureLost (used : Bool) (input : Contact) : Bool := used && input == .opened

/-- The effective capacity (R148). -/
def Header.effCap (h : Header) : Nat := if h.lost then 0 else h.cap

/-- The attention output (R201); it is released while supply is absent (R207). -/
def State.attentionLine (s : State) : Bool :=
  s.powered && s.attention.master &&
    (List.finRange 8).any fun i => s.attention.pending[i] && s.attention.enabled[i]

/-- The share command of an arm (R93). -/
def State.armShare (s : State) (a : ArmId) : Nat := ((s.running a).map (·.share)).getD 0

/-- The module address in force (R207). -/
def Link.address (k : Link) : Nat := k.switches.position.val + 1

/-! ### The ethanol line and the targets (chapter 5) -/

/-- The ethanol target of a preset and a fraction (R94). -/
def ethTarget (preset r : Nat) : Nat := roundHalfUpNat (preset * 1000 * r) 10000

/-- The base target (R94). -/
def baseTarget (preset r : Nat) : Nat := preset * 1000 - ethTarget preset r

/-- The body end (R95). -/
def bodyEnd (preset flush a : Nat) : Nat := (preset - max flush a) * 1000

/-- The close-ahead point (R95). -/
def closeAhead (preset a : Nat) : Nat := (preset - a) * 1000

/-- The body share of a line (R97). -/
def bodyShare (et ea db va : Nat) : Nat := roundHalfUpNat ((et - ea) * 10000) (db - va)

/-- The ethanol line (R96). -/
def ethLine (et ea db va v : Nat) : Int :=
  if v ≤ db then (ea : Int) + ((et : Int) - ea) * ((v : Int) - va) / ((db : Int) - va)
  else et

/-- The share command of a body share and a deviation (R107). -/
def shareCommand (rb : Nat) (d : Int) (h sMax : Nat) : Nat :=
  let raw : Int := rb + (d * 10000).tdiv (h * 1000)
  if raw > sMax then sMax else raw.toNat

/-- The deviation band (R110). -/
def deviationBand (v tMin tol : Nat) : Nat := max (tMin * 1000) (v * tol / 10000)

/-- The strokes due at a delivered volume (R165). -/
def strokesDue (v dose stroke : Nat) : Nat := v * dose / (stroke * 10000)

/-- The ethanol fraction achieved (R118). -/
def ethFraction (eNet bNet : Nat) : Nat :=
  if eNet + bNet = 0 then 0 else roundHalfUpNat (eNet * 10000) (eNet + bNet)

/-- The ethanol verdict (R119). -/
def ethVerdictOf (eNet bNet r tol : Nat) : EthVerdict :=
  if eNet + bNet = 0 then .notDelivered
  else if ((ethFraction eNet bNet : Int) - r).natAbs ≤ tol then .inSpec
  else .offSpec

/-- The additive verdict (R177). The three quantities are taken times 10^8, so that each is exact: the
target is V × D × 100, the proven volume proven × S_c × 10^6, the allowance the greater of S_c × 10^6 and
V × D × tol. -/
def addVerdictOf (v dose tol proven stroke : Nat) : AddVerdict :=
  if ((proven * stroke * 1000000 : Int) - v * dose * 100).natAbs
      ≤ max (stroke * 1000000) (v * dose * tol) then .inSpec
  else .offSpec

/-- The least boundary above the close volume (R101): of the next multiple of W × 1000, the body end
and the close-ahead point, the least that is greater than `vc`. -/
def nextBoundary (w db ca vc : Nat) : Nat :=
  let multiple := (vc / (w * 1000) + 1) * (w * 1000)
  let m1 := if db > vc then min multiple db else multiple
  if ca > vc then min m1 ca else m1

end Sys2Proof.Machine
end

