-- ==== Sys2Proof/Machine/Ops.lean ====
section
/-! DEFINITION. The named operations over the state: single-record updates, attention, stray volume, recipe
references, and the order of things the manual leaves unordered. -/

namespace Sys2Proof.Machine

/-! ### Updates of one record -/

/-- Changes the first member that a test holds of. -/
def updFirst {α : Type} (p : α → Bool) (f : α → α) : List α → List α
  | [] => []
  | x :: xs => if p x then f x :: xs else x :: updFirst p f xs

/-- Removes the first member that a test holds of. -/
def dropFirst {α : Type} (p : α → Bool) : List α → List α
  | [] => []
  | x :: xs => if p x then xs else x :: dropFirst p xs

def State.modArm (a : ArmId) (f : Arm → Arm) (s : State) : State :=
  { s with arms := s.arms.set a (f (s.arm a)) }

def State.modFlow (a : ArmId) (f : FlowState → FlowState) (s : State) : State :=
  s.modArm a fun x => { x with flow := f x.flow }

def State.modLane (n : LaneId) (f : Lane → Lane) (s : State) : State :=
  { s with lanes := s.lanes.set n (f (s.lane n)) }

def State.modMeter (m : MeterId) (f : Meter → Meter) (s : State) : State :=
  { s with meters := s.meters.set m (f (s.meter m)) }

def State.modInjector (j : InjId) (f : Injector → Injector) (s : State) : State :=
  { s with injectors := s.injectors.set j (f (s.injector j)) }

def State.modHeader (f : Header → Header) (s : State) : State := { s with header := f s.header }

def State.modLink (f : Link → Link) (s : State) : State := { s with link := f s.link }

/-- Changes the head load of an arm. -/
def State.modHead (a : ArmId) (f : Load → Load) (s : State) : State :=
  { s with loads := updFirst (fun l => l.arm == a && l.state != .ended) f s.loads }

/-- Changes the record with a load number. -/
def State.modLoad (n : Nat) (f : Load → Load) (s : State) : State :=
  { s with loads := updFirst (fun l => l.number == n) f s.loads }

/-- Changes the recipe with a code. -/
def State.modRecipe (c : Nat) (f : Recipe → Recipe) (s : State) : State :=
  { s with recipes := updFirst (fun r => r.code == c) f s.recipes }

/-- Changes one component account of a load. -/
def Load.modAccount (r : Role) (f : Account → Account) (l : Load) : Load :=
  match r with
  | .base => { l with base := f l.base }
  | .ethanol => { l with eth := f l.eth }

/-- Changes the additive entry of a load that names a channel. -/
def Load.modEntry (j : InjId) (f : AddEntry → AddEntry) (l : Load) : Load :=
  { l with adds := updFirst (fun e => e.inj == j) f l.adds }

/-- Runs an operation over the members of a list, first to last. -/
def State.forAll {α : Type} (l : List α) (f : α → State → State) (s : State) : State :=
  l.foldl (fun t x => f x t) s

/-! ### Orders the manual leaves open -/

/-- Inserts by rank, behind the members of the same or a lower rank. -/
def insertByRank {α : Type} (rank : Nat → Nat) (x : α × Nat) : List (α × Nat) → List (α × Nat)
  | [] => [x]
  | y :: ys => if rank y.2 ≤ rank x.2 then y :: insertByRank rank x ys else x :: y :: ys

/-- The members of a list in the free order of the `n`-th choice (notes/assumptions/1.md). -/
def freeOrder {α : Type} (n : Nat) (l : List α) : List α :=
  (l.zipIdx.foldl (fun acc x => insertByRank (Config.rank n) x acc) []).map (·.1)

/-- Runs an operation over the members of a list, in a free order. -/
def State.forAllFree {α : Type} (l : List α) (f : α → State → State) (s : State) : State :=
  State.forAll (freeOrder s.choices l) f { s with choices := s.choices + 1 }

/-! ### Attention (R201) -/

/-- Sets a source's pending flag. -/
def State.attend (x : Source) (s : State) : State :=
  { s with attention := { s.attention with pending := s.attention.pending.set x.index true } }

/-! ### Sets kept in order -/

/-- A cause joins a set of causes, kept in code order without duplicates (R189). -/
def insertCause (c : Cause) : List Cause → List Cause
  | [] => [c]
  | d :: ds => if c.code < d.code then c :: d :: ds else if c = d then d :: ds else d :: insertCause c ds

/-- An index joins the latched failure set, kept in ascending order without duplicates (R180, R181). -/
def insertInput (k : PermId) : List PermId → List PermId
  | [] => [k]
  | d :: ds => if k < d then k :: d :: ds else if k = d then d :: ds else d :: insertInput k ds

/-- A recipe takes its place in code order (R31). -/
def insertRecipe (r : Recipe) : List Recipe → List Recipe
  | [] => [r]
  | d :: ds => if r.code < d.code then r :: d :: ds else d :: insertRecipe r ds

/-- Keeps the last `n` members of a history (R81, R87). -/
def lastN {α : Type} (n : Nat) (l : List α) : List α := l.drop (l.length - n)

/-! ### Recipe references (R39, R47) -/

def State.raiseReference (c : Nat) (s : State) : State :=
  s.modRecipe c fun r => { r with refs := r.refs + 1 }

/-- Lowers a reference count by 1; a RETIRING recipe whose count reaches 0 is removed and sets
RECIPE_REMOVED. -/
def State.lowerReference (c : Nat) (s : State) : State :=
  match s.recipe c with
  | none => s
  | some r =>
    if r.retiring && r.refs - 1 == 0 then
      State.attend .recipeRemoved { s with recipes := dropFirst (fun x => x.code == c) s.recipes }
    else s.modRecipe c fun x => { x with refs := x.refs - 1 }

/-! ### Stray volume and the leak watch (R64 to R66) -/

/-- The stray volume of an arm from its stray pulse counts (R64). -/
def State.strayVolume (s : State) (x : Arm) : Nat :=
  match x.defn with
  | none => 0
  | some d =>
    sat (pulseVolume (s.meter d.baseMeter) x.strayBase +
      (match d.ethMeter with
       | some m => pulseVolume (s.meter m) x.strayEth
       | none => 0))

/-- R66: the stray counts and volume are set to 0 and the leak watch is re-armed. -/
def Arm.zeroStray (x : Arm) : Arm :=
  { x with strayBase := 0, strayEth := 0, strayVol := 0, leakWatch := .armed }

def State.zeroStray (a : ArmId) (s : State) : State := s.modArm a Arm.zeroStray

/-- R59(b): the lock flag is cleared and the lock record made absent. -/
def Arm.unlock (x : Arm) : Arm := { x with locked := false, lockRecord := none }

/-- Derives the permissive flag of an arm anew (R179). -/
def Arm.derivePermissive (x : Arm) : Arm := { x with permissive := x.derivedPermissive }

end Sys2Proof.Machine
end

