-- ==== Sys2Proof/Machine/Allocation.lean ====
section
/-! DEFINITION. The flow split and the valve commands (R70, R131, R136), the grants of the header
allocator (R148 to R153), the profile (R124, R125), the firing test (R167), the entry to FLOWING and the
admission queue (R154, R155). -/

namespace Sys2Proof.Machine

/-! ### Setpoints, valve commands and the no-flow timers -/

/-- A no-flow timer when its meter's setpoint goes from `old` to `new` (R136). -/
def noFlowTimer (old new time : Nat) (t : Timer) : Timer :=
  if new = 0 then none else if old = 0 then some time else t

/-- Hands new setpoints to the arm table, which writes the valve commands (R70), and starts or stops the
no-flow timers (R136). -/
def Arm.setFlow (x : Arm) (q qb qe : Nat) : Arm :=
  let d := x.defn.getD noArmDef
  { x with
    flow := { x.flow with
      q := q, qBase := qb, qEth := qe
      noFlowBase := noFlowTimer x.flow.qBase qb d.noFlow x.flow.noFlowBase
      noFlowEth := noFlowTimer x.flow.qEth qe d.noFlow x.flow.noFlowEth }
    valveBase := valveCommand qb d.fsBase
    valveEth := valveCommand qe d.fsEth }

/-- R129: Q_dem, Q, Q_b and Q_e become 0 and both valve commands are written as 0; with no setpoint
above 0 no meter should flow, so both no-flow timers stop (R136). -/
def Arm.zeroFlow (x : Arm) : Arm :=
  { x with
    flow := { x.flow with qDem := 0, q := 0, qBase := 0, qEth := 0, noFlowBase := none, noFlowEth := none }
    valveBase := 0
    valveEth := 0 }

/-- The capped demand of R131, step 1. -/
def State.cappedDemand (s : State) (a : ArmId) : Nat := min (s.arm a).flow.qDem (s.defn a).qMax

/-- The ethanol demand of R131, step 2. -/
def State.ethDemand (s : State) (a : ArmId) : Nat := s.cappedDemand a * s.armShare a / 10000

/-- The grant an arm holds; none for an arm that is not a participant. -/
def State.grantOf (s : State) (a : ArmId) : Option Nat :=
  (s.header.parts.find? fun p => p.arm == a).map (·.grant)

/-- The flow of R131, step 3. -/
def splitFlow (pre share demand : Nat) (grant : Option Nat) : Nat :=
  if share = 0 then pre
  else match grant with
    | none => pre
    | some g => if g < demand then min pre (g * 10000 / share) else pre

/-- Steps 3 to 6 of the split (R131), with the grant the arm holds. The split of a load in a state other
than FLOWING or ENDING is not formed (R132). -/
def State.applySplit (a : ArmId) (s : State) : State :=
  match s.running a with
  | none => s
  | some l =>
    if l.state.delivers then
      let q := splitFlow (s.cappedDemand a) l.share (s.ethDemand a) (s.grantOf a)
      let qe := if l.inBody then q * l.share / 10000 else 0
      s.modArm a fun x => x.setFlow q (q - qe) qe
    else s

/-! ### Grants (R152) -/

/-- One participant in a computation of grants; `satisfied` once step 4 has granted its demand. -/
structure Claim where
  part      : Part
  satisfied : Bool
deriving DecidableEq, Repr

/-- Step 4: the unsatisfied participants whose demand is at most the fair share are granted it. -/
def Claim.satisfy (fair : Nat) (c : Claim) : Claim :=
  if !c.satisfied && c.part.demand ≤ fair then
    { part := { c.part with grant := c.part.demand }, satisfied := true }
  else c

/-- Steps 5 and 6: every capped participant is granted the fair share, and the leftover goes one each to
the earliest of them. -/
def capClaims (fair : Nat) : Nat → List Claim → List Claim
  | _, [] => []
  | left, c :: cs =>
    if c.satisfied then c :: capClaims fair left cs
    else match left with
      | 0 => { c with part := { c.part with grant := fair } } :: capClaims fair 0 cs
      | n + 1 => { c with part := { c.part with grant := fair + 1 } } :: capClaims fair n cs

/-- The rounds of R152. The number of rounds is bounded by the number of participants, for each round
but the last satisfies at least one. -/
def fillRounds : Nat → Nat → List Claim → List Claim
  | 0, _, cs => cs
  | rounds + 1, remaining, cs =>
    let open_ := cs.filter fun c => !c.satisfied
    if open_.isEmpty then cs
    else
      let fair := remaining / open_.length
      let now := open_.filter fun c => c.part.demand ≤ fair
      if now.isEmpty then capClaims fair (remaining - fair * open_.length) cs
      else fillRounds rounds (remaining - (now.map (·.part.demand)).sum) (cs.map (Claim.satisfy fair))

/-- The computation of grants of R152. -/
def fillGrants (cap : Nat) (parts : List Part) : List Part :=
  (fillRounds (parts.length + 1) cap (parts.map fun p => { part := p, satisfied := false })).map (·.part)

/-- The arms whose grant differs between two lists of the same participants. -/
def changedGrants (old new : List Part) : List ArmId :=
  ((old.zip new).filter fun x => x.1.grant != x.2.grant).map (·.2.arm)

/-- R153: recomputes every grant; each participant whose grant has changed forms its split anew, but for
the arm whose handing brought the recomputation, which goes on with its own split. -/
def State.recomputeGrants (handing : Option ArmId) (s : State) : State :=
  let old := s.header.parts
  let new := fillGrants s.header.effCap old
  State.forAll ((changedGrants old new).filter fun a => some a != handing) State.applySplit
    (s.modHeader fun h => { h with parts := new })

/-- The split of R131 in full: the ethanol demand of a participant is handed where it differs from the
demand last handed (R151), and the split goes on with the grant the arm then holds. -/
def State.formSplit (a : ArmId) (s : State) : State :=
  if s.headIs a LoadState.delivers then
    match s.header.parts.find? fun p => p.arm == a with
    | none => s.applySplit a
    | some p =>
      if p.demand = s.ethDemand a then s.applySplit a
      else
        let demand := s.ethDemand a
        State.applySplit a <| State.recomputeGrants (some a) <| s.modHeader fun h =>
          { h with parts := updFirst (fun p => p.arm == a) (fun p => { p with demand := demand }) h.parts }
  else s

/-! ### The profile (section 6.2) -/

/-- Whether a step's condition holds (R125, step 2). -/
def Step.holds (x : Step) (preset v : Nat) : Bool :=
  match x.kind with
  | .del => decide (x.vol * 1000 ≤ v)
  | .rem => decide ((preset : Int) * 1000 - v ≤ x.vol * 1000)

/-- The steps taken from the pointer on: the limit and rate in force, the pointer, and whether a step was
taken (R125). -/
def takeSteps (preset v : Nat) : List Step → Nat × Nat × Nat × Bool → Nat × Nat × Nat × Bool
  | [], r => r
  | x :: xs, (limit, rate, ptr, taken) =>
    if x.holds preset v then takeSteps preset v xs (x.limit, x.rate, ptr + 1, true)
    else (limit, rate, ptr, taken)

/-- The ramp target (R127). -/
def rampTarget (d : ArmDef) (f : FlowState) (l : Load) : Nat :=
  let limit := if l.state == .ending && f.limit == 0 then d.rstFlow else f.limit
  if l.rstLeft = 0 then limit else min limit d.rstFlow

/-- With a ramp rate of 0, the demand of a delivering arm becomes the target at once (R127), at a taken step
also where the step leaves the target as it was (DESIGN CHOICE, notes/assumptions/30.md). -/
def State.snapDemand (a : ArmId) (s : State) : State :=
  match s.head a with
  | none => s
  | some l =>
    if l.state.delivers && (s.arm a).flow.rate == 0 then
      s.modFlow a fun f => { f with qDem := rampTarget (s.defn a) f l }
    else s

/-- R125: evaluates the profile of the head load, with its V. Of several steps taken at once, the last one's
rate alone decides whether the demand takes the target at once (DESIGN CHOICE, notes/assumptions/29.md). -/
def State.evalProfile (a : ArmId) (s : State) : State :=
  match s.head a with
  | none => s
  | some l =>
    let f := (s.arm a).flow
    match takeSteps l.preset l.v ((s.recipeOf l).profile.drop (l.step - 1)) (f.limit, f.rate, l.step, false) with
    | (limit, rate, ptr, taken) =>
      if taken then
        State.snapDemand a <| State.modFlow a (fun f => { f with limit := limit, rate := rate }) <|
          s.modHead a fun l => { l with step := ptr }
      else s

/-! ### The firing test (R167) -/

/-- Items (a) to (d) of the firing test of a channel for an entry of a load in progress. -/
def firingTest (stage : EndStage) (d : ArmDef) (l : Load) (e : AddEntry) (j : Injector) : Bool :=
  j.state == .idle &&
  (l.state.delivers || (l.state == .settling && stage == .catchingUp && decide (j.catchUp < d.catchUp))) &&
  decide (e.consec < 3) && decide (e.proven < e.due)

/-- R173, R193: no injector of an arm begins a stroke while the arm is LOCKED or its lane is SHUT. -/
def State.strokesBarred (s : State) (a : ArmId) : Bool := (s.arm a).locked || s.armLaneShut a

/-- Whether the firing test of the channel that serves entry `e` of the arm's head load `l` holds. -/
def State.mayFire (s : State) (a : ArmId) (l : Load) (e : AddEntry) : Bool :=
  !s.strokesBarred a && firingTest (s.arm a).endStage (s.defn a) l e (s.injector e.inj)

/-- The channel when a stroke is fired for a load. -/
def Injector.fire (l : Load) (j : Injector) : Injector :=
  { j with
    state := .firing
    strokeLoad := some l.number
    pulseTimer := some j.width
    proofTimer := some j.proofTo
    catchUp := if l.state == .settling then j.catchUp + 1 else j.catchUp }

/-- Makes the firing test of a channel that serves an entry of the arm's head load (R164), and fires the
stroke when it holds. -/
def State.testFiring (a : ArmId) (ch : InjId) (s : State) : State :=
  match s.running a with
  | none => s
  | some l =>
    match l.adds.find? fun e => e.inj == ch with
    | none => s
    | some e =>
      if s.mayFire a l e then
        State.modInjector ch (Injector.fire l) <|
          s.modHead a fun l => l.modEntry ch fun e => { e with fired := e.fired + 1 }
      else s

/-- The channels serving the entries of an arm's head load, in the entries' order (R164). -/
def State.servingChannels (s : State) (a : ArmId) : List InjId :=
  match s.running a with
  | none => []
  | some l => l.adds.map (·.inj)

/-- Makes the firing test on each channel serving the arm's head load. -/
def State.testAllFiring (a : ArmId) (s : State) : State :=
  State.forAll (s.servingChannels a) (State.testFiring a) s

/-! ### Entry to FLOWING -/

/-- Moves the head load of an arm to FLOWING in a phase: the entry share (R107), the profile at the first
entry (R124), the split (R132) and the firing tests (R167). -/
def State.enterFlowing (a : ArmId) (phase : Phase) (s : State) : State :=
  let d := s.defn a
  let first := !(s.arm a).flow.started
  let s1 := s.modHead a fun l =>
    { l with
      state := .flowing
      phase := phase
      admitFrom := none
      step := if first then 1 else l.step
      share := if phase == .body then shareCommand l.rb l.dev (s.recipeOf l).h d.sMax else 0 }
  let s2 :=
    if first then State.evalProfile a (s1.modFlow a fun f => { f with started := true }) else s1
  State.testAllFiring a (State.formSplit a s2)

/-! ### The admission queue -/

/-- The criterion of R155 for the head of the queue. -/
def State.admissible (s : State) (a : ArmId) : Bool :=
  let fair := s.header.cap / (s.header.parts.length + 1)
  !s.header.lost && decide ((s.defn a).eMin ≤ fair) &&
    s.header.parts.all fun p => decide ((s.defn p.arm).eMin ≤ fair)

/-- Steps 1 to 3 of an admission (R155). -/
def State.admitHead (a : ArmId) (s : State) : State :=
  State.enterFlowing a .body <| State.recomputeGrants none <| s.modHeader fun h =>
    { h with
      queue := h.queue.drop 1
      parts := h.parts ++ [{ arm := a, demand := 0, grant := 0 }] }

/-- R155: evaluates the head of the queue, admits it where the criterion is met, and goes on with the next
head. The cascade ends at the latest with the last arm of the queue. -/
def State.evaluateQueueFor : Nat → State → State
  | 0, s => s
  | n + 1, s =>
    match s.header.queue with
    | [] => s
    | a :: _ => if s.admissible a then State.evaluateQueueFor n (s.admitHead a) else s

def State.evaluateQueue (s : State) : State := State.evaluateQueueFor s.header.queue.length s

/-- R154: an arm joins the tail of the queue; as head of an empty queue it is evaluated at once. An arm not
admitted within the event sets ADMISSION_WAIT (R156). -/
def State.joinQueue (a : ArmId) (s : State) : State :=
  let s1 := s.modHeader fun h => { h with queue := h.queue ++ [a] }
  let s2 := if s.header.queue.isEmpty then s1.evaluateQueue else s1
  if s2.header.queue.contains a then s2.attend .admissionWait else s2

/-- R154: an arm leaves the queue; a new head is evaluated. -/
def State.leaveQueue (a : ArmId) (s : State) : State :=
  if s.header.queue.contains a then
    let s1 := s.modHeader fun h => { h with queue := h.queue.filter (· != a) }
    if s.header.queue.head? == some a then s1.evaluateQueue else s1
  else s

/-- R150, R153, R155: an arm leaves the participant set; the grants are recomputed and the head of the
queue is evaluated. -/
def State.leaveParticipants (a : ArmId) (s : State) : State :=
  if s.header.parts.any (fun p => p.arm == a) then
    State.evaluateQueue <| State.recomputeGrants none <| s.modHeader fun h =>
      { h with parts := h.parts.filter fun p => p.arm != a }
  else s

/-- The arm leaves the header participant set and the admission queue, wherever it stands in them
(R8). -/
def State.leaveHeader (a : ArmId) (s : State) : State := State.leaveQueue a (s.leaveParticipants a)

end Sys2Proof.Machine
end

