-- ==== Sys2Proof/Machine/Causes.lean ====
section
/-! DEFINITION. Taking a stop cause: the entries to SETTLING, HELD and ENDING (R8 to R11), the record of a
cause (R188, R189), its class and escalation (R186, R187), arm locking and lane shutdown (R193 to R196),
and the resume (R190, R191). -/

namespace Sys2Proof.Machine

/-! ### Entry to SETTLING (R8) -/

/-- R8(b): whether an entry by a HOLD, an END or a TRIP leaves the flush incomplete. -/
def Load.losesFlush (l : Load) : Bool :=
  decide (0 < l.eth.gross) &&
    (l.state == .ending ||
      ((l.state == .admitting || l.state == .flowing || l.state == .held) && l.phase == .body))

/-- A channel at a trip: a stroke in FIRING has its solenoid switched off (R173). -/
def Injector.cut (j : Injector) : Injector :=
  if j.state == .firing then { j with state := .awaitProof, pulseTimer := none } else j

/-- R173: switches off the solenoids serving the arm's head load and sets the end stage TRIPPED. -/
def State.cutStrokes (a : ArmId) (s : State) : State :=
  State.modArm a (fun x => { x with endStage := .tripped }) <|
    State.forAll (s.servingChannels a) (fun j t => t.modInjector j Injector.cut) s

/-- R175: the end stage becomes AWAITING_FINAL and the catch-up counts 0. -/
def State.awaitFinal (a : ArmId) (s : State) : State :=
  State.modArm a (fun x => { x with endStage := .awaitingFinal }) <|
    State.forAll (s.servingChannels a) (fun j t => t.modInjector j fun x => { x with catchUp := 0 }) s

/-- R129 and R138: the flow is cut, both settle timers start, and nothing of the settle has happened
yet. -/
def Arm.startSettle (x : Arm) : Arm :=
  let d := x.defn.getD noArmDef
  let y := x.zeroFlow
  { y with
    flow := { y.flow with
      settleTimer := some d.settle
      maxTimer := some d.maxSettle
      lastSettle := none
      settleComplete := false }
    endReported := false }

/-- R8: the head load of an arm enters SETTLING; `how` is the pending outcome the entry sets. -/
def State.enterSettling (a : ArmId) (how : Option PendingOutcome) (s : State) : State :=
  let s1 := s.modHead a fun l =>
    { l with
      state := .settling
      admitFrom := none
      share := 0
      pendingOut := if how.isSome then how else l.pendingOut
      flushInc := l.flushInc || (how.isSome && l.losesFlush) }
  let s2 := State.leaveHeader a (s1.modArm a Arm.startSettle)
  if how == some .tripped then s2.cutStrokes a else s2.awaitFinal a

/-! ### HOLD, END and TRIP (R9 to R11) -/

/-- A cause joins the hold set (R189). -/
def Load.joinHold (code : StopCode) (l : Load) : Load :=
  match code with
  | .endRequest => l
  | .cause c => { l with holds := insertCause c l.holds }

/-- R9: the head load enters HELD with its phase kept. -/
def State.enterHeld (a : ArmId) (code : StopCode) (s : State) : State :=
  State.attend .loadHeld <| State.leaveHeader a <| State.modArm a Arm.zeroFlow <|
    s.modHead a fun l => { l.joinHold code with state := .held, admitFrom := none, share := 0 }

/-- R9: a load in ADMITTING from START returns to AUTHORIZED. -/
def State.backToAuthorized (a : ArmId) (s : State) : State :=
  State.leaveHeader a <| State.modArm a Arm.zeroFlow <|
    s.modHead a fun l => { l with state := .authorized, admitFrom := none, share := 0 }

/-- The flush quantity of R134. -/
def flushQuantity (flush preset a v : Nat) : Int :=
  min ((flush : Int) * 1000) (((preset : Int) - a) * 1000 - v)

/-- R10, R134: the head load enters ENDING, or SETTLING at once where there is no flush to deliver. In that case the
firing test of an entry to ENDING (R167) is not made (DESIGN CHOICE, notes/assumptions/33.md). -/
def State.enterEnding (a : ArmId) (l : Load) (s : State) : State :=
  let qty := flushQuantity (s.recipeOf l).flush l.preset (s.defn a).a l.v
  let s1 := State.leaveHeader a <|
    State.modFlow a (fun f => { f with flushQty := qty, flushStart := l.base.gross }) <|
      s.modHead a fun l => { l with state := .ending, share := 0 }
  if qty ≤ 0 then s1.enterSettling a none else State.testAllFiring a (s1.formSplit a)

/-- What a HOLD does to the head load `l` by its state (R9). -/
def State.actHold (a : ArmId) (code : StopCode) (l : Load) (s : State) : State :=
  match l.state with
  | .admitting =>
    if l.admitFrom == some .start then s.backToAuthorized a else s.enterHeld a code
  | .flowing => s.enterHeld a code
  | .held => s.modHead a (Load.joinHold code)
  | .ending => s.enterSettling a (some .short)
  | .settling | .authorized | .ended => s

/-- What an END does to the head load `l` by its state (R10). -/
def State.actEnd (a : ArmId) (l : Load) (s : State) : State :=
  match l.state with
  | .admitting | .held => s.enterSettling a (some .short)
  | .flowing => s.enterEnding a l
  | .ending | .settling | .authorized | .ended => s

/-- What a TRIP does to the head load of an arm (R11, R173). -/
def State.actTrip (a : ArmId) (s : State) : State :=
  match s.running a with
  | none => s
  | some l =>
    if l.state == .settling then
      State.cutStrokes a (s.modHead a fun l => { l with pendingOut := some .tripped })
    else s.enterSettling a (some .tripped)

/-! ### The record of a cause (R188 to R190) -/

/-- The phase as a stop record carries it: absent outside FLOWING and HELD. -/
def Load.stopPhase (l : Load) : Option Phase :=
  if l.state == .flowing || l.state == .held then some l.phase else none

/-- The stop record of a cause taken for a load. -/
def Load.stopRecord (code : StopCode) (cls : Cls) (det : Detail) (l : Load) : StopRecord :=
  { code := code, cls := cls, detail := det, state := l.state, phase := l.stopPhase, v := l.v }

/-- R188: fills the first stop record where it is absent, otherwise the second where that is absent. -/
def Load.fillStop (code : StopCode) (cls : Cls) (det : Detail) (l : Load) : Load :=
  if l.stop1.isNone then { l with stop1 := some (l.stopRecord code cls det) }
  else if l.stop2.isNone then { l with stop2 := some (l.stopRecord code cls det) }
  else l

/-- R190: the detail of a condition-based cause stays with the stop unit, in whatever class the cause is taken, until a
resume empties the hold set. Details count from the authorization where there has been no resume (DEDUCED,
notes/assumptions/32.md). -/
def Load.keepDetail (code : StopCode) (det : Detail) (l : Load) : Load :=
  match code with
  | .endRequest => l
  | .cause c =>
    if c.conditionBased && !l.holdDetails.contains (c, det) then
      { l with holdDetails := l.holdDetails ++ [(c, det)] }
    else l

/-- Whether a class is taken as a notice in a load state (Table 9.1). -/
def asNotice (cls : Cls) (st : LoadState) : Bool :=
  match cls with
  | .note => true
  | .hold | .endC => st == .settling
  | .trip => false

/-- R189(b): a cause joins the notice set, and NOTICE is set. -/
def State.takeNotice (a : ArmId) (code : StopCode) (s : State) : State :=
  State.attend .notice <| s.modHead a fun l =>
    match code with
    | .endRequest => l
    | .cause c => { l with notices := insertCause c l.notices }

/-! ### Trips, locks and lane shutdown (R193 to R196) -/

/-- R193, R194: an arm not LOCKED becomes LOCKED with the cause and detail; ARM_LOCKED is set. -/
def State.lockArm (a : ArmId) (c : Cause) (det : Detail) (s : State) : State :=
  State.attend .armLocked <| s.modArm a fun x =>
    if x.locked then x else { x with locked := true, lockRecord := some (c, det) }

/-- A trip taken at an arm that does not shut its lane: the record (R188), the change of R11, the lock.
It is the whole of a lane trip (R195, R196). -/
def State.laneTrip (c : Cause) (det : Detail) (a : ArmId) (s : State) : State :=
  State.lockArm a c det <| State.actTrip a <|
    if (s.running a).isSome then s.modHead a (Load.fillStop (.cause c) .trip det) else s

/-- R61: a lane becomes SHUT with its shut cause, LANE_SHUT is set and the stray volumes of its arms are
set to 0 (R66). A lane already SHUT is left as it is. -/
def State.shutLane (n : LaneId) (c : Cause) (s : State) : State :=
  if (s.lane n).shut then s
  else
    State.attend .laneShut <| State.forAll (s.laneArms n) State.zeroStray <|
      s.modLane n fun x => { x with shut := true, shutCause := some c }

/-- R196: a TRIP on an arm that was already LOCKED shuts the arm's lane and trips every other arm of it,
unless the lane is SHUT already. Between two of the trips the header may admit an arm of the lane whose own trip
is still to come (DESIGN CHOICE, notes/assumptions/31.md); no stroke is begun there (R173). -/
def State.escalateLane (a : ArmId) (c : Cause) (det : Detail) (s : State) : State :=
  match s.laneOf a with
  | none => s
  | some n =>
    if (s.lane n).shut then s
    else State.forAllFree ((s.laneArms n).filter (· != a)) (State.laneTrip c det) (s.shutLane n c)

/-- R193, R194: a TRIP taken at an arm. -/
def State.tripArm (a : ArmId) (c : Cause) (det : Detail) (s : State) : State :=
  let was := (s.arm a).locked
  let s1 := s.laneTrip c det a
  if was then s1.escalateLane a c det else s1

/-! ### Taking a cause (R186, R187) -/

/-- The class of a code (R186, step 1). -/
def State.classOf (s : State) : StopCode → Cls
  | .endRequest => .endC
  | .cause c => s.causes[c.index]

/-- R187: whether a HOLD on a load is taken as an END. -/
def escalates (resLimit : Nat) (cls : Cls) (l : Load) : Bool :=
  cls == .hold && l.state == .flowing && decide (0 < resLimit) && decide (resLimit ≤ l.resumes)

/-- R186 for a class other than TRIP on the head load `l`: the record, then the action. After a TRIP there is no resume
for which a detail could count. -/
def State.takeOnLoad (a : ArmId) (code : StopCode) (cls : Cls) (det : Detail) (l : Load) (s : State) :
    State :=
  let s1 := s.modHead a (Load.keepDetail code det)
  if asNotice cls l.state then s1.takeNotice a code
  else
    let s2 := s1.modHead a (Load.fillStop code cls det)
    match cls with
    | .hold => s2.actHold a code l
    | .endC => s2.actEnd a l
    | .note | .trip => s2

/-- R186: a cause raised on an arm's head load is taken by the stop unit. With no head load in ADMITTING …
SETTLING a TRIP locks the arm or shuts its lane (R194), and a cause of any other class is discarded. -/
def State.takeCause (a : ArmId) (code : StopCode) (det : Detail) (s : State) : State :=
  let cls := s.classOf code
  match code, cls with
  | .cause c, .trip => s.tripArm a c det
  | _, _ =>
    match s.running a with
    | none => s
    | some l =>
      if escalates (s.defn a).resLimit cls l then
        (s.modHead a fun l => { l with escalated := true }).takeOnLoad a code .endC det l
      else s.takeOnLoad a code cls det l

/-! ### Resume (R190, R191) -/

/-- R190: whether the condition of a condition-based cause stands for one detail. -/
def State.conditionStands (s : State) (a : ArmId) (x : Cause × Detail) : Bool :=
  match x with
  | (.permissive, _) => (s.arm a).permissive != some true
  | (.supplyLow, .injector j) => (s.injector j).supplyUsed && (s.injector j).supplyLow
  | (.probeFault, .meter m) => (s.meter m).probe == .fault
  | (.headerPressure, _) => s.header.lost
  | _ => false

/-- R191: the resume test of a HELD head load. -/
def State.resumeOk (s : State) (a : ArmId) (l : Load) : Bool :=
  !(s.arm a).locked && !s.armLaneShut a && (s.arm a).permissive == some true &&
    l.holdDetails.all fun x => !(l.holds.contains x.1 && s.conditionStands a x)

/-- R191, steps 1 to 5: a resume that is taken. -/
def State.takeResume (a : ArmId) (l : Load) (s : State) : State :=
  let d := s.defn a
  let s1 := s.modHead a fun l =>
    { l with
      holds := []
      holdDetails := []
      resumes := min 15 (l.resumes + 1)
      rstLeft := d.rstVol
      adds := l.adds.map fun e => { e with consec := 0 } }
  let s2 := s1.modFlow a fun f => { f with resumeVol := l.v }
  if l.phase == .body && decide (0 < (s.recipeOf l).r) then
    State.joinQueue a (s2.modHead a fun l => { l with state := .admitting, admitFrom := some .resume })
  else s2.enterFlowing a l.phase

end Sys2Proof.Machine
end

