-- ==== Sys2Proof/Machine/Closes.lean ====
section
/-! DEFINITION. The closes of a load's account and the end of a load: the net close (R85), the interval
close (R104), the final close (R116), end readiness (R176), the verdicts (R15, R118, R119, R177), the
entry to ENDED (R14), and what a pulse and the settle timer bring (R79, R128, R135 to R139). -/

namespace Sys2Proof.Machine

/-! ### Net close (R85) -/

/-- The net close of one account, with the meter's factors and the temperature the close uses. -/
def Account.netClose (m : Meter) (t : Int) (c : Account) : Account :=
  let gained : Int := c.gross - pulseVolume m c.closed
  let num : Int := gained * vcf m.beta t + c.carry
  let inc : Int := num / 1000000
  { c with
    net := sat (c.net + inc).toNat
    carry := (num - inc * 1000000).toNat
    closed := c.pulses
    temp := t }

/-- The net close of one role of a load of an arm: at a close during the load with the meter's present
average, at power restore (`live = false`) with the account's retained temperature. An account whose arm
has no such meter is left as it is. -/
def State.netCloseRole (s : State) (d : ArmDef) (live : Bool) (r : Role) (l : Load) : Load :=
  match d.meterOf r with
  | none => l
  | some m =>
    let t := if live then (s.meter m).tAvg else (l.account r).temp
    l.modAccount r (Account.netClose (s.meter m) t)

/-- The net close of both accounts of a load. -/
def State.netCloseLoad (s : State) (live : Bool) (l : Load) : Load :=
  let d := s.defn l.arm
  s.netCloseRole d live .ethanol (s.netCloseRole d live .base l)

/-! ### Interval close (R104) -/

/-- Step 3: the deviation and the peak deviation (R106). -/
def Load.writeDeviation (l : Load) : Load :=
  let d := ethLine l.et l.ea l.db l.va l.v - l.eth.gross
  { l with dev := d, peak := max l.peak d.natAbs }

/-- Steps 1 to 3: the close volume, the net close and the deviation. -/
def State.closeAccounts (s : State) (l : Load) : Load :=
  let l1 := s.netCloseLoad true { l with vc := l.v }
  if l.state == .admitting || l.state == .flowing || l.state == .held then l1.writeDeviation else l1

/-- Step 4: the findings on the head load `l` (R12, R113). -/
def State.actFindings (a : ArmId) (l : Load) (s : State) : State :=
  if closeAhead l.preset (s.defn a).a ≤ l.v then s.enterSettling a none
  else if l.db ≤ l.v then
    match l.state with
    | .flowing =>
      if l.phase == .body then
        State.leaveHeader a (s.modHead a fun l => { l with phase := .flush, share := 0 })
      else s
    | .held => s.modHead a fun l => { l with phase := .flush, share := 0 }
    | .admitting => State.enterFlowing a .flush (s.leaveHeader a)
    | .authorized | .ending | .settling | .ended => s
  else s

/-- The alarm count after a close in FLOWING, BODY, and whether RATIO_DEVIATION is to be raised (R111,
R112). -/
def alarmCount (devCount band : Nat) (l : Load) : Nat × Bool :=
  if band < l.dev.natAbs then
    if devCount ≤ l.alarms + 1 then (0, true) else (l.alarms + 1, false)
  else (0, false)

/-- Step 5 for a load FLOWING in BODY: the alarm count and the share command. -/
def Load.shareAndAlarm (d : ArmDef) (r : Recipe) (l : Load) : Load :=
  { l with
    alarms := (alarmCount d.devCount (deviationBand l.v d.tMin r.tol) l).1
    share := shareCommand l.rb l.dev r.h d.sMax }

/-- Whether step 5 brings RATIO_DEVIATION at step 7. -/
def Load.alarmRaised (d : ArmDef) (r : Recipe) (l : Load) : Bool :=
  l.inBody && (alarmCount d.devCount (deviationBand l.v d.tMin r.tol) l).2

/-- Writes the strokes due of every additive entry of a load at a delivered volume (R165). -/
def State.writeDue (s : State) (v : Nat) (l : Load) : Load :=
  { l with adds := l.adds.map fun e => { e with due := strokesDue v e.dose (s.injector e.inj).stroke } }

/-- The lag watch of a channel after a judgement (R166). -/
def lagWatchAfter (limit : Nat) (e : AddEntry) (w : Watch) : Watch :=
  if limit < e.due - e.proven then .raised
  else if w == .raised then .armed else w

/-- Whether the judgement of an entry raises ADDITIVE_LAG (R166). -/
def lagRaises (limit : Nat) (e : AddEntry) (w : Watch) : Bool :=
  w == .armed && decide (limit < e.due - e.proven)

/-- R166: judges the lag of each entry of a delivering head load and raises ADDITIVE_LAG where it is
due. -/
def State.judgeLag (a : ArmId) (s : State) : State :=
  match s.head a with
  | none => s
  | some l =>
    if l.state.delivers then
      let limit := (s.defn a).lag
      let raised := (l.adds.filter fun e => lagRaises limit e (s.injector e.inj).lagWatch).map (·.inj)
      let s1 := State.forAll l.adds (fun e t =>
        t.modInjector e.inj fun j => { j with lagWatch := lagWatchAfter limit e j.lagWatch }) s
      State.forAllFree raised (fun j t => t.takeCause a (.cause .additiveLag) (.injector j)) s1
    else s

/-- The flow unit's part of step 6: the profile of a started load not in SETTLING, then the split (R125,
R132). -/
def State.handToFlow (a : ArmId) (s : State) : State :=
  State.formSplit a <|
    if (s.arm a).flow.started && s.headIs a LoadState.closes then s.evalProfile a else s

/-- The injector unit's part of step 6: the strokes due, the lag, the firing tests (R165 to R167). -/
def State.handToInjectors (a : ArmId) (s : State) : State :=
  State.testAllFiring a <| State.judgeLag a <| s.modHead a fun l => s.writeDue l.v l

/-- Step 7: RATIO_DEVIATION is raised, SHORT for a positive and EXCESS for a negative deviation (R112). -/
def State.raiseRatio (a : ArmId) (d : Int) (s : State) : State :=
  s.takeCause a (.cause .ratioDeviation) (if 0 < d then .shortOf else .excess)

/-- R104: an interval close of the head load of an arm, in its seven steps. -/
def State.intervalClose (a : ArmId) (s : State) : State :=
  let d := s.defn a
  let s3 := s.modHead a s.closeAccounts
  match s3.head a with
  | none => s3
  | some l3 =>
    let s4 := s3.actFindings a l3
    match s4.head a with
    | none => s4
    | some l4 =>
      let r := s4.recipeOf l4
      let s5 := if l4.inBody then s4.modHead a (Load.shareAndAlarm d r) else s4
      let s6 := State.handToInjectors a (s5.handToFlow a)
      if l4.alarmRaised d r then s6.raiseRatio a l4.dev else s6

/-! ### Entry to ENDED (R14, R15) -/

/-- R14, steps 1 to 3, and R29, steps 3 and 4: the outcome, the verdicts and the metrology count of a
record that enters ENDED. -/
def State.concludeLoad (s : State) (o : LoadOutcome) (surplus : Nat) (l : Load) : Load :=
  let r := s.recipeOf l
  { l with
    state := .ended
    admitFrom := none
    pendingOut := none
    outcome := some o
    frac := some (ethFraction l.eth.net l.base.net)
    ethVerdict := some (ethVerdictOf l.eth.net l.base.net r.r r.tol)
    overrun := some surplus
    adds := l.adds.map fun e =>
      { e with verdict := some (addVerdictOf l.vc e.dose e.tol e.proven (s.injector e.inj).stroke) }
    mce := s.metrology }

/-- The outcome of a settled load (R14, step 1). -/
def Load.settledOutcome (l : Load) : LoadOutcome :=
  match l.pendingOut with
  | none => .complete
  | some .short => .short
  | some .tripped => .tripped

/-- R14: the settling head load of an arm enters ENDED. It leaves its arm's queue with its state, and the
arm's end stage becomes NONE (R176). -/
def State.enterEnded (a : ArmId) (l : Load) (s : State) : State :=
  State.attend .loadEnded <| State.lowerReference l.recipe <|
    State.modArm a (fun x => { x with endStage := .none, endReported := false }) <|
      s.modHead a (s.concludeLoad l.settledOutcome (s.arm a).flow.overrun)

/-- Whether both reports of R14 stand for a settling head load. -/
def State.endDue (s : State) (a : ArmId) : Bool :=
  s.headIs a (· == .settling) && (s.arm a).flow.settleComplete && (s.arm a).endReported

/-- R14: the head load enters ENDED when both reports stand. -/
def State.tryEnd (a : ArmId) (s : State) : State :=
  match s.head a with
  | none => s
  | some l => if s.endDue a then s.enterEnded a l else s

/-! ### Final close and end readiness (R116, R175, R176) -/

/-- Whether every channel serving the head load `l` is IDLE and its firing test does not hold. -/
def State.channelsQuiet (s : State) (a : ArmId) (l : Load) : Bool :=
  l.adds.all fun e => (s.injector e.inj).state == .idle && !s.mayFire a l e

/-- R176: reports end readiness where the final V has been handed and every channel is quiet. -/
def State.testReadiness (a : ArmId) (s : State) : State :=
  match s.head a with
  | none => s
  | some l =>
    if l.state == .settling && (s.arm a).flow.settleComplete && !(s.arm a).endReported &&
        s.channelsQuiet a l then
      s.modArm a fun x =>
        { x with
          endReported := true
          endStage := if x.endStage == .tripped then .tripped else .done }
    else s

/-- R175: the end catch-up begins, unless the load was tripped. -/
def State.beginCatchUp (a : ArmId) (s : State) : State :=
  if (s.arm a).endStage == .awaitingFinal then
    State.testAllFiring a (s.modArm a fun x => { x with endStage := .catchingUp })
  else s

/-- R116: the final close of a settling load. -/
def State.finalClose (a : ArmId) (s : State) : State :=
  State.testReadiness a <| State.beginCatchUp a <| s.modHead a fun l =>
    let l1 := s.netCloseLoad true l
    s.writeDue l1.v { l1 with vc := l1.v }

/-- R139: the settle timer of a settling load expires. -/
def State.completeSettle (a : ArmId) (s : State) : State :=
  let s2 := State.finalClose a <| s.modFlow a fun f =>
    { f with settleTimer := none, maxTimer := none, settleComplete := true }
  match s2.head a with
  | none => s2
  | some l =>
    let surplus := l.v - l.preset * 1000
    let s3 := s2.modFlow a fun f => { f with overrun := surplus }
    let s4 := if 0 < surplus then s3.takeCause a (.cause .overrun) (.litres (surplus / 1000)) else s3
    s4.tryEnd a

/-! ### Pulses (R64, R65, R79) -/

/-- R79(c), steps 1 to 3: a pulse credited to a load's account. -/
def Load.credit (m : Meter) (r : Role) (l : Load) : Load :=
  let l1 := l.modAccount r fun c =>
    { c with pulses := sat (c.pulses + 1), gross := sat (pulseVolume m (sat (c.pulses + 1))) }
  { l1 with v := sat (l1.base.gross + l1.eth.gross) }

/-- R65: a stray volume above the leak allowance with the watch ARMED raises LEAK_BY on the arm. -/
def State.watchLeak (a : ArmId) (m : MeterId) (s : State) : State :=
  let x := s.arm a
  if x.leakWatch == .armed && decide ((s.defn a).leak * 1000 < x.strayVol) then
    State.takeCause a (.cause .leakBy) (.meter m) (s.modArm a fun x => { x with leakWatch := .raised })
  else s

/-- R64: a pulse credited to an arm's stray volume. -/
def State.strayPulse (a : ArmId) (r : Role) (m : MeterId) (s : State) : State :=
  let s1 := s.modArm a fun x =>
    match r with
    | .base => { x with strayBase := sat (x.strayBase + 1) }
    | .ethanol => { x with strayEth := sat (x.strayEth + 1) }
  State.watchLeak a m (s1.modArm a fun x => { x with strayVol := s1.strayVolume x })

/-- R128: the restart volume left at a credited pulse. With a ramp rate of 0 its fall to 0 changes the
demand within the event (R127, R132). -/
def State.updateRestart (a : ArmId) (s : State) : State :=
  match s.head a with
  | none => s
  | some l =>
    if 0 < l.rstLeft then
      let left := (s.defn a).rstVol - (l.v - (s.arm a).flow.resumeVol) / 1000
      let s1 := s.modHead a fun l => { l with rstLeft := left }
      if left == 0 && (s.arm a).flow.rate == 0 then State.formSplit a (s1.snapDemand a) else s1
    else s

/-- R136: a pulse from a meter that should flow restarts its no-flow timer. -/
def FlowState.pulseSeen (time : Nat) (r : Role) (f : FlowState) : FlowState :=
  match r with
  | .base => if 0 < f.qBase then { f with noFlowBase := some time } else f
  | .ethanol => if 0 < f.qEth then { f with noFlowEth := some time } else f

/-- R79, step 5: the flow unit is told of a pulse credited to the head load. `settling` says whether the
load was in SETTLING when the pulse was credited (R138; notes/assumptions/6.md). -/
def State.reportPulse (a : ArmId) (r : Role) (m : MeterId) (settling : Bool) (s : State) : State :=
  let s1 := s.updateRestart a
  match s1.head a with
  | none => s1
  | some l =>
    match l.state with
    | .flowing => s1.modFlow a (FlowState.pulseSeen (s1.defn a).noFlow r)
    | .ending =>
      let s2 := s1.modFlow a (FlowState.pulseSeen (s1.defn a).noFlow r)
      if r == .base && decide ((s2.arm a).flow.flushQty ≤ (l.base.gross : Int) - (s2.arm a).flow.flushStart)
      then s2.enterSettling a none else s2
    | .settling =>
      if settling && !(s1.arm a).flow.settleComplete then
        s1.modFlow a fun f =>
          { f with settleTimer := some (s1.defn a).settle, lastSettle := some m }
      else s1
    | .authorized | .admitting | .held | .ended => s1

/-- R79(c), step 4: an interval close where V has reached the next boundary (R101 to R103). -/
def State.closeIfDue (a : ArmId) (s : State) : State :=
  match s.head a with
  | none => s
  | some l =>
    let d := s.defn a
    if l.state.closes && decide (nextBoundary d.w l.db (closeAhead l.preset d.a) l.vc ≤ l.v) then
      s.intervalClose a
    else s

/-- R79(b), (c): a pulse on a meter bound to an arm. -/
def State.boundPulse (a : ArmId) (r : Role) (m : MeterId) (s : State) : State :=
  match s.running a with
  | none => s.strayPulse a r m
  | some l =>
    State.reportPulse a r m (l.state == .settling) <|
      State.closeIfDue a (s.modHead a (Load.credit (s.meter m) r))

end Sys2Proof.Machine
end

