-- ==== Sys2Proof/Machine/Restoring.lean ====
section
/-! DEFINITION. Power restore, RESTART and FACTORY_CLEAR: the interruption of loads (R29), the live state
begun anew (R72, R91, R141, R158, R178, R182), the attention left pending (R207) and the emergency-stop
inputs read (R195). -/

namespace Sys2Proof.Machine

/-- The input levels the module has at present, with the rotary switches as last read. -/
def State.inputs (s : State) : Inputs :=
  { switches := s.link.switches
    permissives := s.arms.map (·.levels)
    emergency := s.lanes.map (·.emergency)
    pressure := s.header.input
    calibration := s.calibration
    proof := s.injectors.map (·.proofIn)
    supplyLow := s.injectors.map (·.supplyLow) }

/-! ### Live state -/

/-- An arm at power restore (R72, R141, R178, R182), with the levels read then. -/
def Arm.begin (levels : Vector Contact 8) (x : Arm) : Arm :=
  Arm.derivePermissive
    { x with
      strayBase := 0, strayEth := 0, strayVol := 0, leakWatch := .armed
      levels := levels, latched := [], flow := FlowState.fresh, valveBase := 0, valveEth := 0
      endStage := .none, endReported := false }

/-- The header at power restore (R158), with the input level read then. -/
def Header.begin (input : Contact) (h : Header) : Header :=
  { h with input := input, lost := pressureLost h.pressureUsed input, parts := [], queue := [] }

/-- Every block's live state begins anew, with the input levels given. Retained memory stands, but for
the records of the load and recipe tables, which `State.interruptLoads` deals with. The rotary switches
are taken over (R207(a)), the link timer stops, every pending flag is cleared, and no frame is being
received or sent. -/
def State.beginLive (inp : Inputs) (s : State) : State :=
  { s with
    arms := s.arms.mapFinIdx fun i x h => x.begin inp.permissives[i]
    lanes := s.lanes.mapFinIdx fun i x h => { x with emergency := inp.emergency[i] }
    meters := s.meters.map Meter.fresh
    injectors := s.injectors.mapFinIdx fun i x h => x.fresh inp.proof[i] inp.supplyLow[i]
    header := s.header.begin inp.pressure
    attention := { s.attention with pending := Vector.replicate 8 false }
    link :=
      { s.link with switches := inp.switches, timer := none, receiving := false, sending := none }
    calibration := inp.calibration }

/-! ### Interrupted loads (R29) -/

/-- A record interrupted at power restore: the net close with the retained temperatures, the
flush-incomplete flag, the close volume and share command of R117, and the verdicts. -/
def State.interruptLoad (s : State) (l : Load) : Load :=
  let l1 := s.netCloseLoad false l
  s.concludeLoad .interrupted (l1.v - l1.preset * 1000)
    { l1 with flushInc := l1.flushInc || l.losesFlush, vc := l1.v, share := 0 }

/-- R29: one record of the table at power restore. -/
def State.interruptRecord (n : Nat) (s : State) : State :=
  match s.load n with
  | none => s
  | some l =>
    if l.state.inProgress then
      State.attend .loadEnded <| State.lowerReference l.recipe <| s.modLoad n s.interruptLoad
    else s

/-- R29: every record in ADMITTING … SETTLING ends INTERRUPTED, in table order. -/
def State.interruptLoads (s : State) : State :=
  State.forAll (s.loads.map (·.number)) State.interruptRecord s

/-! ### Emergency stops (R195) -/

/-- R195, steps 1 and 2: the lane becomes SHUT with EMERGENCY_STOP, and every arm of it takes a lane
trip. Between two of the trips the header may admit an arm of the lane whose own trip is still to come (DESIGN
CHOICE, notes/assumptions/31.md); no stroke is begun there (R173). ARM_LOCKED is set by the trips: a lane with no
commissioned arm sets LANE_SHUT alone (DESIGN CHOICE, notes/assumptions/34.md). -/
def State.emergencyTrip (n : LaneId) (s : State) : State :=
  State.forAllFree (s.laneArms n) (State.laneTrip .emergencyStop (.lane n)) (s.shutLane n .emergencyStop)

/-- R195: a lane that is NORMAL and whose input is active is shut as at a change to active. -/
def State.readEmergency (n : LaneId) (s : State) : State :=
  if (s.lane n).emergency && !(s.lane n).shut then s.emergencyTrip n else s

def State.readEmergencies (s : State) : State := State.forAll (List.finRange 4) State.readEmergency s

/-! ### The whole sequences -/

/-- R207 with the blocks' own rules: what power restore does, given the input levels read. -/
def State.restorePower (inp : Inputs) (s : State) : State :=
  State.readEmergencies <| State.attend .powerRestored <| State.interruptLoads <|
    { s.beginLive inp with powered := true }

/-- R208, step 2: what RESTART does, given the switch positions read. It interrupts no load. -/
def State.restartModule (sw : Switches) (s : State) : State :=
  State.readEmergencies <| State.attend .powerRestored <|
    s.beginLive { s.inputs with switches := sw }

/-- R209, steps 2 to 4: what FACTORY_CLEAR does. It does not read the rotary switches. -/
def State.clearFactory (s : State) : State :=
  State.readEmergencies <| State.attend .powerRestored <|
    State.beginLive s.inputs
      { s with
        recipes := []
        arms := s.arms.map fun x => { x with defn := none, locked := false, lockRecord := none }
        lanes := s.lanes.map fun x => { x with shut := false, shutCause := none }
        metrology := min 65535 (s.metrology + 1)
        meters := Vector.replicate 16 factoryMeter
        injectors := s.injectors.map fun j =>
          { factoryInjector with proofIn := j.proofIn, supplyLow := j.supplyLow }
        header := { factoryHeader with input := s.header.input }
        causes := factoryCauses
        attention := { s.attention with enabled := Vector.replicate 8 true, master := true }
        link := { s.link with timeout := 0 } }

/-- R206: loss of supply. Retained memory stands as the last whole event left it; the live state, the
pending flags and any frame in progress are lost. -/
def State.losePower (s : State) : State := { s.beginLive s.inputs with powered := false }

end Sys2Proof.Machine
end

