-- ==== Sys2Proof/Machine/Requesting.lean ====
section
/-! DEFINITION. How an event and a request are taken: nothing reaches a module without supply (R206), a
frame that arrives while a response is sent is lost (R199), a valid frame is answered with one response
and restarts the link timer (R199(d), R200, R205). -/

namespace Sys2Proof.Machine

/-- What an event of the field or of a timer does: nothing while supply is absent. -/
def event (f : State → State) (s : State) : Host.Outcome State Fault Refusal :=
  .next (if s.powered then f s else s)

/-- What the owner of a request answers: the state after it, the response, and whether the request stops
the link timer (R205(c)). -/
structure Reply where
  state      : State
  response   : Response
  stopsTimer : Bool

/-- The link timer after a valid frame: restarted for the setting in force after the request, stopped
where that is 0 (R205(a)) or where the request stops it. -/
def timerAfter (timeout : Nat) (stops : Bool) : Timer :=
  if stops || timeout == 0 then none else some timeout

/-- The link unit once a request has been taken: the frame is finished, the link timer restarted, and the
response is being sent with the address in force before the request (R200, R208). -/
def Reply.finish (address : Nat) (r : Reply) : State :=
  r.state.modLink fun k =>
    { k with
      receiving := false
      timer := timerAfter k.timeout r.stopsTimer
      sending := some { address := address, response := r.response } }

/-- R199: a valid frame is taken, unless the module is sending a response and its receiver is off. -/
def State.takeFrame (f : State → Reply) (s : State) : State :=
  if s.link.sending.isSome then s else (f s).finish s.link.address

/-- The owner's answer: the form and range checks, then the checks against the state, then the change. A
request answered NO changes nothing (R200). -/
def answerRequest {α : Type} (parse : Except Code α) (refuse : α → State → Option Code)
    (accept : α → State → State) (answer : α → State → State → Response) (s : State) : Reply :=
  match parse with
  | .error c => { state := s, response := .no c, stopsTimer := false }
  | .ok q =>
    match refuse q s with
    | some c => { state := s, response := .no c, stopsTimer := false }
    | none => { state := accept q s, response := answer q s (accept q s), stopsTimer := false }

/-- A request: `parse` its form and range, `refuse` its checks against the state, `accept` its change,
`answer` its response from the states before and after. -/
def request {α : Type} (parse : Except Code α) (refuse : α → State → Option Code)
    (accept : α → State → State) (answer : α → State → State → Response) (s : State) :
    Host.Outcome State Fault Refusal :=
  event (State.takeFrame (answerRequest parse refuse accept answer)) s

/-- A request that is refused by its form alone and changes nothing. -/
def report {α : Type} (parse : Except Code α) (answer : α → State → Response) (s : State) :
    Host.Outcome State Fault Refusal :=
  request parse (fun _ _ => none) (fun _ t => t) (fun q _ t => answer q t) s

/-- The first check that fails decides the refusal. Each entry says whether its check FAILS. -/
def firstFailure : List (Bool × Code) → Option Code
  | [] => none
  | (fails, c) :: rest => if fails then some c else firstFailure rest

end Sys2Proof.Machine
end

