-- ==== Sys2Proof/Machine/Arms.lean ====
section
/-! DEFINITION. The requests of arms and lanes (chapter 3 and R181): SET_ARM, GET_ARM, DECOMMISSION_ARM,
GET_ARM_STATUS, RESET_ARM, RESET_LANE and GET_PERMISSIVES. -/

namespace Sys2Proof.Machine

/-! ### SET_ARM and DECOMMISSION_ARM (R54, R55, R57) -/

/-- The meter channels a definition names. -/
def ArmDef.meters (d : ArmDef) : List MeterId := d.baseMeter :: d.ethMeter.toList

/-- Whether another arm's definition names a meter or injector of `d` (R54, check 4). -/
def State.boundElsewhere (s : State) (a : ArmId) (d : ArmDef) : Bool :=
  allArms.any fun b => b != a && (s.arm b).defn.any fun e =>
    (d.meters.any fun m => e.meters.contains m) || d.injectors.any fun j => e.injectors.contains j

/-- R54. -/
def setArmRefusal (q : ArmArgs) (s : State) : Option Code :=
  firstFailure
    [(s.armLaneShut q.arm || (s.lane q.defn.lane).shut, .laneShut),
     (!(s.armQueue q.arm).isEmpty, .inUse),
     (q.defn.ethMeter == some q.defn.baseMeter, .bound),
     (s.boundElsewhere q.arm q.defn, .bound)]

/-- R55, with the flag derived (R179) and the latched set emptied (R182). The lock and both valve commands
stand. -/
def Arm.commission (d : ArmDef) (x : Arm) : Arm :=
  Arm.derivePermissive (Arm.zeroStray { x with defn := some d, latched := [] })

def setArmAccept (q : ArmArgs) (s : State) : State := s.modArm q.arm (Arm.commission q.defn)

def setArmAnswer (q : ArmArgs) (_ _ : State) : Response :=
  .ok [field "ARM" (armText q.arm), field "LANE" (laneText q.defn.lane), field "COMM" (yesNo true)]

def execSetArm (fields : List Chars) (s : State) : Host.Outcome State Fault Refusal :=
  request (parseSetArm fields) setArmRefusal setArmAccept setArmAnswer s

/-- R57(b), (c). -/
def decommissionRefusal (a : ArmId) (s : State) : Option Code :=
  firstFailure
    [(!s.commissioned a, .notCommissioned), (!(s.armQueue a).isEmpty, .inUse)]

/-- R57(d): the definition goes, with the stray volume and the latched set; an arm that is not commissioned
has no flag (R179) and holds both valve commands at 0 (R51). -/
def Arm.decommission (x : Arm) : Arm :=
  Arm.derivePermissive (Arm.zeroStray { x with defn := none, latched := [], valveBase := 0, valveEth := 0 })

def decommissionAccept (a : ArmId) (s : State) : State := s.modArm a Arm.decommission

def decommissionAnswer (a : ArmId) (_ _ : State) : Response :=
  .ok [field "ARM" (armText a), field "COMM" (yesNo false)]

def execDecommissionArm (fields : List Chars) (s : State) : Host.Outcome State Fault Refusal :=
  request (parseArm fields) decommissionRefusal decommissionAccept decommissionAnswer s

/-! ### GET_ARM and GET_ARM_STATUS (R58, R60) -/

def notCommissionedRefusal (a : ArmId) (s : State) : Option Code :=
  if s.commissioned a then none else some .notCommissioned

/-- Every field of Table 3.1, in the table's order (R58). -/
def armFields (d : ArmDef) : List Field :=
  [field "LANE" (laneText d.lane), field "BMETER" (meterText d.baseMeter),
   field "EMETER" (dash (d.ethMeter.map meterText)), field "INJ" (listText (d.injectors.map injText)),
   field "QMAX" (numText d.qMax), field "FSB" (numText d.fsBase), field "FSE" (numText d.fsEth),
   field "SMAX" (numText d.sMax), field "EMIN" (numText d.eMin), field "W" (numText d.w),
   field "A" (numText d.a), field "SETTLE" (numText d.settle), field "MAXSETTLE" (numText d.maxSettle),
   field "NOFLOW" (numText d.noFlow), field "RSTFLOW" (numText d.rstFlow),
   field "RSTVOL" (numText d.rstVol), field "LEAK" (numText d.leak),
   field "RESLIMIT" (numText d.resLimit), field "DEVCOUNT" (numText d.devCount),
   field "TMIN" (numText d.tMin), field "LAG" (numText d.lag), field "CATCHUP" (numText d.catchUp)] ++
  d.perms.toList.zipIdx.map fun x => (keyN "PERM".toList x.2, permText x.1)

def getArmAnswer (a : ArmId) (s _ : State) : Response :=
  match (s.arm a).defn with
  | none => .no .notCommissioned
  | some d => .ok (armFields d)

def execGetArm (fields : List Chars) (s : State) : Host.Outcome State Fault Refusal :=
  request (parseArm fields) notCommissionedRefusal (fun _ t => t) getArmAnswer s

def Condition.text : Condition → Chars
  | .idle => "IDLE".toList
  | .active => "ACTIVE".toList
  | .locked => "LOCKED".toList

def laneStateText (shut : Bool) : Chars := if shut then "SHUT".toList else "NORMAL".toList

/-- The fields of R60. -/
def statusFields (s : State) (a : ArmId) : List Field :=
  let x := s.arm a
  let lane := (s.laneOf a).map s.lane
  [field "ARM" (armText a), field "COMM" (yesNo (s.commissioned a)),
   field "COND" (s.condition a).text,
   field "LOCK" (dash (x.lockRecord.map fun r => joinWith ',' [r.1.text, r.2.text])),
   field "LANE" (dash ((s.laneOf a).map laneText)),
   field "LANESTATE" (dash (lane.map fun n => laneStateText n.shut)),
   field "SHUTCAUSE" (dash ((lane.bind (·.shutCause)).map Cause.text)),
   field "BLOCK" (dash (lane.map fun n => onOff n.blockValve)),
   field "STRAY" (numText x.strayVol), field "WATCH" x.leakWatch.text,
   field "HEAD" (dash ((s.head a).map fun l => numText l.number)),
   field "HSTATE" (dash ((s.head a).map fun l => l.state.text)),
   field "QUEUE" (numText (s.armQueue a).length),
   field "VB" (numText x.valveBase), field "VE" (numText x.valveEth)]

def armStatusAnswer (a : ArmId) (s : State) : Response := .ok (statusFields s a)

def execGetArmStatus (fields : List Chars) (s : State) : Host.Outcome State Fault Refusal :=
  report (parseArm fields) armStatusAnswer s

/-! ### RESET_ARM and RESET_LANE (R62, R63) -/

/-- R62(b), (c). -/
def resetArmRefusal (a : ArmId) (s : State) : Option Code :=
  firstFailure [(s.armLaneShut a, .laneShut), (s.headIs a (· == .settling), .wrongState)]

def Arm.reset (x : Arm) : Arm := x.unlock.zeroStray

def resetArmAccept (a : ArmId) (s : State) : State := s.modArm a Arm.reset

def resetArmAnswer (a : ArmId) (_ after : State) : Response :=
  .ok [field "ARM" (armText a), field "COND" (after.condition a).text]

def execResetArm (fields : List Chars) (s : State) : Host.Outcome State Fault Refusal :=
  request (parseArm fields) resetArmRefusal resetArmAccept resetArmAnswer s

/-- R63(b). -/
def resetLaneRefusal (n : LaneId) (s : State) : Option Code :=
  firstFailure
    [((s.lane n).emergency, .wrongState),
     ((s.laneArms n).any fun a => decide ((s.defn a).leak * 1000 < (s.arm a).strayVol), .wrongState),
     ((s.laneArms n).any fun a => s.headIs a (· == .settling), .wrongState)]

/-- R63(c). -/
def resetLaneAccept (n : LaneId) (s : State) : State :=
  State.forAll (s.laneArms n) (fun a t => t.modArm a Arm.reset) <|
    s.modLane n fun x => { x with shut := false, shutCause := none }

def resetLaneAnswer (n : LaneId) (_ after : State) : Response :=
  .ok [field "LANE" (laneText n), field "LANESTATE" (laneStateText (after.lane n).shut)]

def execResetLane (fields : List Chars) (s : State) : Host.Outcome State Fault Refusal :=
  request (parseLane fields) resetLaneRefusal resetLaneAccept resetLaneAnswer s

/-! ### GET_PERMISSIVES (R181) -/

/-- The latched failure set is emptied once it has been reported. -/
def getPermissivesAccept (a : ArmId) (s : State) : State := s.modArm a fun x => { x with latched := [] }

def getPermissivesAnswer (a : ArmId) (s _ : State) : Response :=
  let x := s.arm a
  .ok [field "ARM" (armText a), field "LEVELS" (listText (x.levels.toList.map contactText)),
       field "SAT" (dash (x.permissive.map yesNo)),
       field "LATCHED" (listText (x.latched.map fun k => numText k.val))]

def execGetPermissives (fields : List Chars) (s : State) : Host.Outcome State Fault Refusal :=
  request (parseArm fields) (fun _ _ => none) getPermissivesAccept getPermissivesAnswer s

end Sys2Proof.Machine
end

