-- ==== Sys2Proof/Machine/Flow.lean ====
section
/-! DEFINITION. What drives a load at its arm (chapters 1 and 6): START_PRESS, STOP_PRESS, RAMP_TICK,
NO_FLOW_TIMER_EXPIRY, SETTLE_TIMER_EXPIRY, MAXIMUM_SETTLE_EXPIRY and LOAD_ENTERS_ENDED. -/

namespace Sys2Proof.Machine

/-! ### START_PRESS (R5, R123, R164, R83, R174, R191) -/

/-- Whether a START press on an AUTHORIZED head load is taken (R5(a)). -/
def State.startOk (s : State) (a : ArmId) : Bool :=
  (s.arm a).permissive == some true && !(s.arm a).locked && !s.armLaneShut a

/-- The channel that serves an entry when its load starts (R166, R175). -/
def Injector.serve (j : Injector) : Injector := { j with lagWatch := .armed, catchUp := 0 }

/-- What a taken START press sets before it moves the load: the stray volume (R66), the flow state (R123),
the end stage and the serving channels (R164). -/
def State.prepareStart (a : ArmId) (l : Load) (s : State) : State :=
  State.forAll (l.adds.map (·.inj)) (fun j t => t.modInjector j Injector.serve) <|
    s.modArm a fun x =>
      { x.zeroStray with flow := FlowState.fresh, endStage := .none, endReported := false }

/-- The move of the load at a taken START press (R5(a)). -/
def State.moveStart (a : ArmId) (l : Load) (s : State) : State :=
  if 0 < (s.recipeOf l).r then
    State.joinQueue a (s.modHead a fun l => { l with state := .admitting, admitFrom := some .start })
  else s.enterFlowing a .body

/-- The conditions found standing at a START press: PROBE_FAULT for each meter of the arm whose probe status
is FAULT (R83), SUPPLY_LOW for each serving channel whose supply-low input is in use and reads LOW (R174).
Every press that takes the load out of AUTHORIZED finds them, a second one in the same fault episode too
(DEDUCED, notes/assumptions/28.md). -/
def State.startCauses (s : State) (a : ArmId) (l : Load) : List (Cause × Detail) :=
  (((s.defn a).baseMeter :: (s.defn a).ethMeter.toList).filter fun m => (s.meter m).probe == .fault).map
      (fun m => (Cause.probeFault, Detail.meter m)) ++
  ((l.adds.map (·.inj)).filter fun j => (s.injector j).supplyUsed && (s.injector j).supplyLow).map
      (fun j => (Cause.supplyLow, Detail.injector j))

/-- A START press taken on the AUTHORIZED head load `l`. The causes found standing are raised once the load
has moved, in a free order (notes/assumptions/1.md). -/
def State.takeStart (a : ArmId) (l : Load) (s : State) : State :=
  State.forAllFree (s.startCauses a l) (fun x t => t.takeCause a (.cause x.1) x.2)
    ((s.prepareStart a l).moveStart a l)

/-- R5. -/
def State.pressStart (a : ArmId) (s : State) : State :=
  match s.head a with
  | none => s
  | some l =>
    match l.state with
    | .authorized => if s.startOk a then s.takeStart a l else s
    | .held => if s.resumeOk a l then s.takeResume a l else s
    | .admitting | .flowing | .ending | .settling | .ended => s

def execStartPress (a : ArmId) (s : State) : Host.Outcome State Fault Refusal :=
  event (State.pressStart a) s

/-! ### STOP_PRESS (R6) -/

/-- The states in which a STOP press raises DRIVER_STOP. -/
def LoadState.stoppable : LoadState → Bool
  | .admitting | .flowing | .ending => true
  | .authorized | .held | .settling | .ended => false

def State.pressStop (a : ArmId) (s : State) : State :=
  if s.headIs a LoadState.stoppable then s.takeCause a (.cause .driverStop) .none else s

def execStopPress (a : ArmId) (s : State) : Host.Outcome State Fault Refusal :=
  event (State.pressStop a) s

/-! ### RAMP_TICK (R127, R130) -/

/-- One ramp tick's move of a demand toward a target (R127). -/
def rampMove (rate target q : Nat) : Nat :=
  if rate = 0 then target
  else
    let step := max 1 (rate / 10)
    if q ≤ target then min target (q + step) else max target (q - step)

def State.tickRamp (a : ArmId) (s : State) : State :=
  match s.head a with
  | none => s
  | some l =>
    if l.state.delivers then
      let f := (s.arm a).flow
      let q := rampMove f.rate (rampTarget (s.defn a) f l) f.qDem
      if q = f.qDem then s else State.formSplit a (s.modFlow a fun f => { f with qDem := q })
    else s

def execRampTick (a : ArmId) (s : State) : Host.Outcome State Fault Refusal := event (State.tickRamp a) s

/-! ### NO_FLOW_TIMER_EXPIRY (R137) -/

def FlowState.noFlow (f : FlowState) : Role → Timer
  | .base => f.noFlowBase
  | .ethanol => f.noFlowEth

def FlowState.stopNoFlow (r : Role) (f : FlowState) : FlowState :=
  match r with
  | .base => { f with noFlowBase := none }
  | .ethanol => { f with noFlowEth := none }

/-- R137. A timer that is stopped does not expire (notes/assumptions/7.md). -/
def State.expireNoFlow (a : ArmId) (r : Role) (s : State) : State :=
  match (s.arm a).flow.noFlow r, (s.defn a).meterOf r with
  | some _, some m =>
    State.takeCause a (.cause .noFlow) (.meter m) (s.modFlow a (FlowState.stopNoFlow r))
  | _, _ => s

def execNoFlowTimerExpiry (a : ArmId) (r : Role) (s : State) : Host.Outcome State Fault Refusal :=
  event (State.expireNoFlow a r) s

/-! ### The settle timers (R139, R140) -/

def State.expireSettle (a : ArmId) (s : State) : State :=
  if s.headIs a (· == .settling) && (s.arm a).flow.settleTimer.isSome then s.completeSettle a else s

def execSettleTimerExpiry (a : ArmId) (s : State) : Host.Outcome State Fault Refusal :=
  event (State.expireSettle a) s

/-- R140: the timer stops, and LEAK_BY is raised where a pulse has been credited since the entry. -/
def State.expireMaxSettle (a : ArmId) (s : State) : State :=
  let f := (s.arm a).flow
  if s.headIs a (· == .settling) && f.maxTimer.isSome then
    let s1 := s.modFlow a fun f => { f with maxTimer := none }
    match f.lastSettle with
    | some m => if f.settleComplete then s1 else s1.takeCause a (.cause .leakBy) (.meter m)
    | none => s1
  else s

def execMaximumSettleExpiry (a : ArmId) (s : State) : Host.Outcome State Fault Refusal :=
  event (State.expireMaxSettle a) s

/-! ### LOAD_ENTERS_ENDED (R14) -/

def execLoadEntersEnded (a : ArmId) (s : State) : Host.Outcome State Fault Refusal :=
  event (State.tryEnd a) s

end Sys2Proof.Machine
end

