-- ==== Sys2Proof/Machine/HeaderUnit.lean ====
section
/-! DEFINITION. The header allocator's commands (chapter 7): SET_HEADER, GET_HEADER,
HEADER_PRESSURE_INPUT_CHANGE and ADMISSION. -/

namespace Sys2Proof.Machine

/-! ### SET_HEADER and GET_HEADER (R146, R147) -/

/-- R146, check 3. -/
def setHeaderRefusal (_ : HeaderArgs) (s : State) : Option Code :=
  if s.header.parts.isEmpty then none else some .inUse

/-- Steps 1 and 2 of R146: the settings carried are written, and the pressure state is derived anew where
PRESSURE was carried. -/
def Header.write (q : HeaderArgs) (h : Header) : Header :=
  { h with
    cap := q.cap.getD h.cap
    pressureUsed := q.pressure.getD h.pressureUsed
    lost := if q.pressure.isSome then pressureLost (q.pressure.getD h.pressureUsed) h.input else h.lost }

/-- R146: the settings, then the evaluation of the queue head (step 3). -/
def setHeaderAccept (q : HeaderArgs) (s : State) : State :=
  State.evaluateQueue (s.modHeader (Header.write q))

def pressureUseText (used : Bool) : Chars := if used then "USED".toList else "UNUSED".toList
def pressureStateText (lost : Bool) : Chars := if lost then "LOST".toList else "PRESENT".toList

/-- The response gives the settings and the state as they stand after step 2. -/
def setHeaderAnswer (q : HeaderArgs) (before _ : State) : Response :=
  let h := before.header.write q
  .ok [field "CAP" (numText h.cap), field "PRESSURE" (pressureUseText h.pressureUsed),
       field "STATE" (pressureStateText h.lost)]

def execSetHeader (fields : List Chars) (s : State) : Host.Outcome State Fault Refusal :=
  request (parseSetHeader fields) setHeaderRefusal setHeaderAccept setHeaderAnswer s

/-- The fields of R147. -/
def getHeaderAnswer (_ : Unit) (s : State) : Response :=
  let h := s.header
  .ok ([field "CAP" (numText h.cap), field "PRESSURE" (pressureUseText h.pressureUsed),
        field "INPUT" (contactText h.input), field "STATE" (pressureStateText h.lost),
        field "EFFCAP" (numText h.effCap), field "COUNT" (numText h.parts.length)] ++
       numberedFields "P" (h.parts.map fun p =>
         joinWith ',' [armText p.arm, numText p.demand, numText p.grant]) ++
       [field "SUM" (numText (h.parts.map (·.grant)).sum),
        field "QUEUE" (listText (h.queue.map armText))])

def execGetHeader (fields : List Chars) (s : State) : Host.Outcome State Fault Refusal :=
  report (parseNothing fields) getHeaderAnswer s

/-! ### HEADER_PRESSURE_INPUT_CHANGE (R148, R149) -/

/-- R149: HEADER_PRESSURE on the head load of an arm that is still a participant. -/
def State.raisePressure (a : ArmId) (s : State) : State :=
  if s.header.parts.any (fun p => p.arm == a) then s.takeCause a (.cause .headerPressure) .none else s

/-- R148(a): PRESENT to LOST. The causes are raised in admission order. -/
def State.losePressure (s : State) : State :=
  State.forAll (s.header.parts.map (·.arm)) State.raisePressure (s.recomputeGrants none)

/-- R148(b): LOST to PRESENT. With no participant there is no grant to recompute. -/
def State.regainPressure (s : State) : State := State.evaluateQueue (s.recomputeGrants none)

/-- R148: a change of the input level. A level that stands already is no change. -/
def State.takePressure (level : Contact) (s : State) : State :=
  if s.header.input = level then s
  else
    let lost := pressureLost s.header.pressureUsed level
    let s1 := s.modHeader fun h => { h with input := level, lost := lost }
    if lost == s.header.lost then s1
    else if lost then s1.losePressure
    else s1.regainPressure

def execHeaderPressureInputChange (level : Contact) (s : State) : Host.Outcome State Fault Refusal :=
  event (State.takePressure level) s

/-! ### ADMISSION (R155) -/

/-- The head of the admission queue is evaluated, and admitted where the criterion is met. -/
def execAdmission (s : State) : Host.Outcome State Fault Refusal := event State.evaluateQueue s

end Sys2Proof.Machine
end

