-- ==== Sys2Proof/Machine/Meters.lean ====
section
/-! DEFINITION. The meter unit (chapter 4 and R67 to R69): SET_METER, GET_METER, METER_PULSE,
TEMPERATURE_SAMPLE and FLOW_READING. -/

namespace Sys2Proof.Machine

/-! ### SET_METER (R67, R68, R76, R77, R90) -/

/-- Whether an optional new value differs from the stored one. -/
def changes (new : Option Nat) (old : Nat) : Bool := new.any (· != old)

/-- Whether a SET_METER changes K or MF. -/
def MeterArgs.changesFactor (q : MeterArgs) (m : Meter) : Bool := changes q.k m.k || changes q.mf m.mf

/-- Whether a SET_METER is a metrological change (R67). -/
def MeterArgs.metrological (q : MeterArgs) (m : Meter) : Bool := q.changesFactor m || changes q.beta m.beta

/-- R67, check 2, for the arm a channel is bound to. -/
def State.boundInUse (s : State) (a : Option ArmId) : Bool := a.any fun a => (s.running a).isSome

/-- The checks of R67 for a metrological change. -/
def metrologyRefusal (metro : Bool) (a : Option ArmId) (s : State) : Option Code :=
  if metro then firstFailure [(s.calibration != .closed, .calOpen), (s.boundInUse a, .inUse)] else none

def setMeterRefusal (q : MeterArgs) (s : State) : Option Code :=
  metrologyRefusal (q.metrological (s.meter q.meter)) ((s.meterBinding q.meter).map (·.1)) s

/-- The channel after a SET_METER (R77, R90). -/
def Meter.write (q : MeterArgs) (m : Meter) : Meter :=
  { m with
    k := q.k.getD m.k
    mf := q.mf.getD m.mf
    beta := q.beta.getD m.beta
    tDepth := q.tDepth.getD m.tDepth
    qDepth := q.qDepth.getD m.qDepth
    tHist := if changes q.tDepth m.tDepth then [] else m.tHist
    qHist := if changes q.qDepth m.qDepth then [] else m.qHist
    residue := if q.changesFactor m then 0 else m.residue }

/-- R68(a): the gross volume of an account that holds pulses, and V, worked out anew. -/
def Load.regross (m : Meter) (r : Role) (l : Load) : Load :=
  if (l.account r).pulses = 0 then l
  else
    let l1 := l.modAccount r fun c => { c with gross := sat (pulseVolume m c.pulses) }
    { l1 with v := sat (l1.base.gross + l1.eth.gross) }

/-- R68(a): the effects of a change of K or MF on the arm the channel is bound to. -/
def State.applyFactor (m : MeterId) (s : State) : State :=
  match s.meterBinding m with
  | none => s
  | some (a, r) =>
    let s1 := { s with loads := s.loads.map fun (l : Load) =>
      if l.arm == a && l.state == LoadState.authorized then l.regross (s.meter m) r else l }
    State.watchLeak a m (s1.modArm a fun x => { x with strayVol := s1.strayVolume x })

/-- R69(a): the metrology count after a metrological change. -/
def State.countMetrology (s : State) : State := { s with metrology := min 65535 (s.metrology + 1) }

def setMeterAccept (q : MeterArgs) (s : State) : State :=
  let m := s.meter q.meter
  let s1 := s.modMeter q.meter (Meter.write q)
  let s2 := if q.metrological m then s1.countMetrology else s1
  if q.changesFactor m then s2.applyFactor q.meter else s2

/-- The response of SET_METER and SET_INJECTOR. -/
def channelAnswer (ch : Chars) (metro : Bool) (after : State) : Response :=
  .ok [field "CHANNEL" ch, field "METRO" (yesNo metro), field "COUNT" (numText after.metrology)]

def setMeterAnswer (q : MeterArgs) (before after : State) : Response :=
  channelAnswer (meterText q.meter) (q.metrological (before.meter q.meter)) after

def execSetMeter (fields : List Chars) (s : State) : Host.Outcome State Fault Refusal :=
  request (parseSetMeter fields) setMeterRefusal setMeterAccept setMeterAnswer s

/-! ### GET_METER (R78) -/

def roleText : Role → Chars
  | .base => "BASE".toList
  | .ethanol => "ETHANOL".toList

def getMeterAnswer (i : MeterId) (s : State) : Response :=
  let m := s.meter i
  let b := s.meterBinding i
  .ok [field "CHANNEL" (meterText i), field "K" (numText m.k), field "MF" (numText m.mf),
       field "BETA" (numText m.beta), field "TDEPTH" (numText m.tDepth), field "QDEPTH" (numText m.qDepth),
       field "ARM" (dash (b.map fun x => armText x.1)), field "ROLE" (dash (b.map fun x => roleText x.2)),
       field "TEMP" (intText m.tAvg), field "PROBE" m.probe.text,
       field "SAMPLES" (numText m.tHist.length), field "VCF" (intText (vcf m.beta m.tAvg)),
       field "Q" (numText m.qAvg),
       field "HIGH" (if m.high then "HIGH".toList else "CLEAR".toList)]

def execGetMeter (fields : List Chars) (s : State) : Host.Outcome State Fault Refusal :=
  report (parseMeter fields) getMeterAnswer s

/-! ### METER_PULSE (R79) -/

/-- R79: the pulse raises the channel's flow window, and a bound channel's pulse is credited. -/
def State.takePulse (m : MeterId) (s : State) : State :=
  let s1 := s.modMeter m fun x => { x with window := sat (x.window + 1) }
  match s1.meterBinding m with
  | none => s1
  | some (a, r) => s1.boundPulse a r m

def execMeterPulse (m : MeterId) (s : State) : Host.Outcome State Fault Refusal := event (State.takePulse m) s

/-! ### TEMPERATURE_SAMPLE (R81 to R83) -/

/-- The measuring range of R81. -/
def goodSample (v : Int) : Bool := decide (-400 ≤ v) && decide (v ≤ 600)

/-- A good sample (R81(a), R82). -/
def Meter.sample (v : Int) (m : Meter) : Meter :=
  let hist := lastN (2 ^ m.tDepth) (m.tHist ++ [v])
  { m with tHist := hist, tAvg := meanHalfUp hist, probe := .good }

def State.takeSample (i : MeterId) (v : Int) (s : State) : State :=
  if goodSample v then s.modMeter i (Meter.sample v)
  else if (s.meter i).probe == .fault then s
  else
    let s1 := s.modMeter i fun m => { m with probe := .fault }
    match s1.meterBinding i with
    | none => s1
    | some (a, _) =>
      if (s1.running a).isSome then s1.takeCause a (.cause .probeFault) (.meter i) else s1

def execTemperatureSample (m : MeterId) (value : Int) (s : State) : Host.Outcome State Fault Refusal :=
  event (State.takeSample m value) s

/-! ### FLOW_READING (R87 to R89) -/

/-- R87 and R88: the reading, the residue, the history and the flow average. -/
def Meter.read (m : Meter) : Meter :=
  let num := m.window * 100 * m.mf + m.residue
  let gained := num / m.k
  let hist := lastN (2 ^ m.qDepth) (m.qHist ++ [min 9999 (gained * 120 / 1000)])
  { m with window := 0, residue := num - gained * m.k, qHist := hist, qAvg := hist.sum / hist.length }

/-- R89: whether the average is above q_max × 11 / 10. -/
def aboveLimit (d : ArmDef) (avg : Nat) : Bool := decide (d.qMax * 11 < avg * 10)

def State.takeReading (i : MeterId) (s : State) : State :=
  let s1 := s.modMeter i Meter.read
  match s1.meterBinding i with
  | none => s1.modMeter i fun m => { m with high := false }
  | some (a, _) =>
    let above := aboveLimit (s1.defn a) (s1.meter i).qAvg
    let s2 := s1.modMeter i fun m => { m with high := above }
    if above && !(s1.meter i).high && (s2.running a).isSome then
      s2.takeCause a (.cause .flowHigh) (.meter i)
    else s2

def execFlowReading (m : MeterId) (s : State) : Host.Outcome State Fault Refusal :=
  event (State.takeReading m) s

end Sys2Proof.Machine
end

