-- ==== Sys2Proof/Machine/Injectors.lean ====
section
/-! DEFINITION. The injector unit (chapter 8): SET_INJECTOR, GET_INJECTOR, PROOF_ARRIVAL,
PROOF_INPUT_OPEN, PULSE_WIDTH_EXPIRY, PROOF_TIMER_EXPIRY and SUPPLY_LOW_INPUT_CHANGE. -/

namespace Sys2Proof.Machine

/-! ### SET_INJECTOR and GET_INJECTOR (R161 to R163) -/

/-- Whether a SET_INJECTOR is a metrological change (R67). -/
def InjectorArgs.metrological (q : InjectorArgs) (j : Injector) : Bool := changes q.stroke j.stroke

/-- R161, checks 3 to 5. -/
def setInjectorRefusal (q : InjectorArgs) (s : State) : Option Code :=
  let j := s.injector q.injector
  let a := s.injectorArm q.injector
  if q.proofTo.getD j.proofTo < q.width.getD j.width then some .range
  else match metrologyRefusal (q.metrological j) a s with
    | some c => some c
    | none =>
      if changes q.addId j.addId && a.any (fun a => !(s.armQueue a).isEmpty) then some .inUse else none

/-- The channel after a SET_INJECTOR (R162). A stroke in flight keeps the timers it was fired with. -/
def Injector.write (q : InjectorArgs) (j : Injector) : Injector :=
  { j with
    addId := q.addId.getD j.addId
    stroke := q.stroke.getD j.stroke
    width := q.width.getD j.width
    proofTo := q.proofTo.getD j.proofTo
    supplyUsed := q.supply.getD j.supplyUsed }

def setInjectorAccept (q : InjectorArgs) (s : State) : State :=
  let s1 := s.modInjector q.injector (Injector.write q)
  if q.metrological (s.injector q.injector) then s1.countMetrology else s1

def setInjectorAnswer (q : InjectorArgs) (before after : State) : Response :=
  channelAnswer (injText q.injector) (q.metrological (before.injector q.injector)) after

def execSetInjector (fields : List Chars) (s : State) : Host.Outcome State Fault Refusal :=
  request (parseSetInjector fields) setInjectorRefusal setInjectorAccept setInjectorAnswer s

def usedText (b : Bool) : Chars := if b then "USED".toList else "UNUSED".toList

def getInjectorAnswer (i : InjId) (s : State) : Response :=
  let j := s.injector i
  .ok [field "CHANNEL" (injText i), field "ADDID" (numText j.addId), field "STROKE" (numText j.stroke),
       field "WIDTH" (numText j.width), field "PROOFTO" (numText j.proofTo),
       field "SUPPLY" (usedText j.supplyUsed), field "ARM" (dash ((s.injectorArm i).map armText)),
       field "STATE" j.state.text, field "LOAD" (dash (j.strokeLoad.map numText)),
       field "PROOFIN" (contactText j.proofIn),
       field "SUPPLYIN" (if j.supplyLow then "LOW".toList else "NORMAL".toList),
       field "LAG" j.lagWatch.text, field "CATCHUP" (numText j.catchUp)]

def execGetInjector (fields : List Chars) (s : State) : Host.Outcome State Fault Refusal :=
  report (parseInjector fields) getInjectorAnswer s

/-! ### Proof, miss and pulse width (R168 to R170) -/

/-- The channel when its stroke is over: the solenoid off, both timers stopped, no stroke load, IDLE. -/
def Injector.release (j : Injector) : Injector :=
  { j with state := .idle, pulseTimer := none, proofTimer := none, strokeLoad := none }

/-- Steps 3 and 4 of R169 and 4 and 5 of R170: the firing test, then the end readiness test, after which
the load may enter ENDED (R14). -/
def State.afterStroke (ch : InjId) (s : State) : State :=
  match s.injectorArm ch with
  | none => s
  | some a => State.tryEnd a (State.testReadiness a (s.testFiring a ch))

/-- R169: a proof completes the stroke in flight. -/
def State.proveStroke (ch : InjId) (s : State) : State :=
  match (s.injector ch).strokeLoad with
  | none => s
  | some n =>
    State.afterStroke ch <| State.modInjector ch Injector.release <|
      s.modLoad n fun l => l.modEntry ch fun e => { e with proven := e.proven + 1, consec := 0 }

/-- R169: a change of the proof input from OPEN to CLOSED. On an IDLE channel it is ignored; a level that
is CLOSED already is no change. -/
def State.takeProof (ch : InjId) (s : State) : State :=
  if (s.injector ch).proofIn == .closed then s
  else
    let s1 := s.modInjector ch fun j => { j with proofIn := .closed }
    if (s.injector ch).state == .idle then s1 else s1.proveStroke ch

def execProofArrival (j : InjId) (s : State) : Host.Outcome State Fault Refusal := event (State.takeProof j) s

def execProofInputOpen (j : InjId) (s : State) : Host.Outcome State Fault Refusal :=
  event (State.modInjector j fun x => { x with proofIn := .opened }) s

/-- R168. A timer that is stopped does not expire (notes/assumptions/7.md). -/
def State.endPulse (ch : InjId) (s : State) : State :=
  if (s.injector ch).pulseTimer.isSome && (s.injector ch).state == .firing then
    s.modInjector ch fun j => { j with state := .awaitProof, pulseTimer := none }
  else s

def execPulseWidthExpiry (j : InjId) (s : State) : Host.Outcome State Fault Refusal :=
  event (State.endPulse j) s

/-- R170, step 3: ADDITIVE_FAIL where the consecutive misses of the stroke load's entry have reached 3. -/
def State.raiseFail (ch : InjId) (n : Nat) (s : State) : State :=
  match s.load n with
  | none => s
  | some l =>
    if (l.adds.find? fun e => e.inj == ch).any fun e => decide (3 ≤ e.consec) then
      s.takeCause l.arm (.cause .additiveFail) (.injector ch)
    else s

/-- R170: the proof timer of a stroke expires. -/
def State.missStroke (ch : InjId) (s : State) : State :=
  match (s.injector ch).proofTimer, (s.injector ch).strokeLoad with
  | some _, some n =>
    State.afterStroke ch <| State.raiseFail ch n <| State.modInjector ch Injector.release <|
      s.modLoad n fun l => l.modEntry ch fun e =>
        { e with missed := e.missed + 1, consec := e.consec + 1 }
  | _, _ => s

def execProofTimerExpiry (j : InjId) (s : State) : Host.Outcome State Fault Refusal :=
  event (State.missStroke j) s

/-! ### Supply low (R174) -/

/-- Whether a channel serves an entry of its arm's head load, and that arm (R164). -/
def State.servedArm (s : State) (ch : InjId) : Option ArmId :=
  (s.injectorArm ch).filter fun a => (s.servingChannels a).contains ch

/-- R174(a): a change of the supply-low input. A level that stands already is no change. -/
def State.takeSupply (ch : InjId) (low : Bool) (s : State) : State :=
  if (s.injector ch).supplyLow == low then s
  else
    let s1 := s.modInjector ch fun j => { j with supplyLow := low }
    match s1.servedArm ch with
    | none => s1
    | some a =>
      if low && (s1.injector ch).supplyUsed && s1.headIs a LoadState.preSettling then
        s1.takeCause a (.cause .supplyLow) (.injector ch)
      else s1

def execSupplyLowInputChange (j : InjId) (low : Bool) (s : State) : Host.Outcome State Fault Refusal :=
  event (State.takeSupply j low) s

end Sys2Proof.Machine
end

