-- ==== Sys2Proof/Decode.lean ====
section
/-! DEFINITION. Which command a word or a frame spells. No row of spec/opcode_table.json gives bits, so no
word of bits spells a command. A frame on the link does (R199, R200): its command is read from the
characters between the start character and the carriage return, and written back by `requestBody`. -/

namespace Sys2Proof

open Machine

/-- The command a word of bits spells: none, for the table gives no row any bits. -/
def decodeTableWord (_nbits _w : Nat) : Option Instr := none

/-- The request words of Table 10.1, with the command each stands for. -/
def requestTable : List (String × (List Chars → Switches → Instr)) :=
  [("AUTHORIZE", fun f _ => .authorize f), ("AMEND", fun f _ => .amend f),
   ("CANCEL", fun f _ => .cancel f), ("HOLD", fun f _ => .hold f), ("RESUME", fun f _ => .resume f),
   ("END", fun f _ => .endLoad f), ("GET_LOAD", fun f _ => .getLoad f),
   ("RETIRE_LOAD", fun f _ => .retireLoad f), ("LIST_LOADS", fun f _ => .listLoads f),
   ("STORE_RECIPE", fun f _ => .storeRecipe f), ("GET_RECIPE", fun f _ => .getRecipe f),
   ("RETIRE_RECIPE", fun f _ => .retireRecipe f), ("LIST_RECIPES", fun f _ => .listRecipes f),
   ("SET_ARM", fun f _ => .setArm f), ("GET_ARM", fun f _ => .getArm f),
   ("DECOMMISSION_ARM", fun f _ => .decommissionArm f),
   ("GET_ARM_STATUS", fun f _ => .getArmStatus f), ("SET_METER", fun f _ => .setMeter f),
   ("GET_METER", fun f _ => .getMeter f), ("SET_INJECTOR", fun f _ => .setInjector f),
   ("GET_INJECTOR", fun f _ => .getInjector f), ("SET_HEADER", fun f _ => .setHeader f),
   ("GET_HEADER", fun f _ => .getHeader f), ("SET_CAUSE", fun f _ => .setCause f),
   ("GET_CAUSES", fun f _ => .getCauses f), ("GET_PERMISSIVES", fun f _ => .getPermissives f),
   ("RESET_ARM", fun f _ => .resetArm f), ("RESET_LANE", fun f _ => .resetLane f),
   ("GET_ATTENTION", fun f _ => .getAttention f), ("CLEAR_ATTENTION", fun f _ => .clearAttention f),
   ("SET_ATTENTION_ENABLE", fun f _ => .setAttentionEnable f), ("SET_LINK", fun f _ => .setLink f),
   ("GET_IDENT", fun f _ => .getIdent f), ("RESTART", fun f sw => .restart f sw),
   ("FACTORY_CLEAR", fun f _ => .factoryClear f)]

/-- The request a first token stands for; none where it is no request word (R200(a)). -/
def requestOf? (word : Chars) : Option (List Chars → Switches → Instr) :=
  (requestTable.find? fun r => r.1.toList == word).map (·.2)

/-- R200: the command of the tokens of a valid frame's body. `sw` are the rotary-switch positions, which a
RESTART reads. -/
def requestCommand (sw : Switches) : List Chars → Instr
  | [] => .unknownRequest []
  | w :: ts => match requestOf? w with
    | some mk => mk ts sw
    | none => .unknownRequest (w :: ts)

/-- R199(c), (d): the command a completed frame brings, given the module address in force and the
characters between its start character and its carriage return. -/
def frameCommand (address : Nat) (sw : Switches) (frame : Chars) : Instr :=
  match frameBody? address frame with
  | none => .invalidFrame frame
  | some body => requestCommand sw (tokens body)

/-- The tokens a request command is sent with: its request word, then its fields; none for a command that
no valid frame brings. -/
def requestTokens : Instr → Option (List Chars)
  | .authorize f => some ("AUTHORIZE".toList :: f)
  | .amend f => some ("AMEND".toList :: f)
  | .cancel f => some ("CANCEL".toList :: f)
  | .hold f => some ("HOLD".toList :: f)
  | .resume f => some ("RESUME".toList :: f)
  | .endLoad f => some ("END".toList :: f)
  | .getLoad f => some ("GET_LOAD".toList :: f)
  | .retireLoad f => some ("RETIRE_LOAD".toList :: f)
  | .listLoads f => some ("LIST_LOADS".toList :: f)
  | .storeRecipe f => some ("STORE_RECIPE".toList :: f)
  | .getRecipe f => some ("GET_RECIPE".toList :: f)
  | .retireRecipe f => some ("RETIRE_RECIPE".toList :: f)
  | .listRecipes f => some ("LIST_RECIPES".toList :: f)
  | .setArm f => some ("SET_ARM".toList :: f)
  | .getArm f => some ("GET_ARM".toList :: f)
  | .decommissionArm f => some ("DECOMMISSION_ARM".toList :: f)
  | .getArmStatus f => some ("GET_ARM_STATUS".toList :: f)
  | .setMeter f => some ("SET_METER".toList :: f)
  | .getMeter f => some ("GET_METER".toList :: f)
  | .setInjector f => some ("SET_INJECTOR".toList :: f)
  | .getInjector f => some ("GET_INJECTOR".toList :: f)
  | .setHeader f => some ("SET_HEADER".toList :: f)
  | .getHeader f => some ("GET_HEADER".toList :: f)
  | .setCause f => some ("SET_CAUSE".toList :: f)
  | .getCauses f => some ("GET_CAUSES".toList :: f)
  | .getPermissives f => some ("GET_PERMISSIVES".toList :: f)
  | .resetArm f => some ("RESET_ARM".toList :: f)
  | .resetLane f => some ("RESET_LANE".toList :: f)
  | .getAttention f => some ("GET_ATTENTION".toList :: f)
  | .clearAttention f => some ("CLEAR_ATTENTION".toList :: f)
  | .setAttentionEnable f => some ("SET_ATTENTION_ENABLE".toList :: f)
  | .setLink f => some ("SET_LINK".toList :: f)
  | .getIdent f => some ("GET_IDENT".toList :: f)
  | .restart f _ => some ("RESTART".toList :: f)
  | .factoryClear f => some ("FACTORY_CLEAR".toList :: f)
  | .unknownRequest ts => some ts
  | .invalidFrame _ | .frameTimeout | .startPress _ | .stopPress _ | .meterPulse _
  | .temperatureSample _ _ | .flowReading _ | .rampTick _ | .permissiveInputChange _ _ _
  | .emergencyStopActive _ | .emergencyStopRelease _ | .headerPressureInputChange _
  | .calibrationSwitchChange _ | .proofArrival _ | .proofInputOpen _ | .supplyLowInputChange _ _
  | .pulseWidthExpiry _ | .proofTimerExpiry _ | .noFlowTimerExpiry _ _ | .settleTimerExpiry _
  | .maximumSettleExpiry _ | .linkTimeoutExpiry | .powerRestore _ | .admission | .loadEntersEnded _
  | .frameStartCharacter | .frameLengthLimit | .supplyLoss | .responseSent => none

/-- The characters between the start character and the carriage return of the frame that brings a request
command to a module; none for a command that no valid frame brings. -/
def requestFrame (address : Nat) (i : Instr) : Option Chars :=
  (requestTokens i).map fun ts => frameInside address (joinWith ' ' ts)

/-- The rotary-switch positions a command carries, `sw` where it carries none. -/
def switchesOf (sw : Switches) : Instr → Switches
  | .restart _ x => x
  | _ => sw

end Sys2Proof
end

