-- ==== Sys2Proof/Machine/LinkUnit.lean ====
section
/-! DEFINITION. The link unit's commands (chapter 10): the attention requests, SET_LINK, GET_IDENT,
RESTART, FACTORY_CLEAR, UNKNOWN_REQUEST, the events of the port, LINK_TIMEOUT_EXPIRY, POWER_RESTORE and
SUPPLY_LOSS. -/

namespace Sys2Proof.Machine

/-! ### Attention (R202 to R204) -/

/-- The sources whose flag is set, as a list in a response. -/
def sourcesText (flags : Vector Bool 8) : Chars :=
  listText ((allSources.filter fun x => flags[x.index]).map Source.text)

def getAttentionAnswer (_ : Unit) (s : State) : Response :=
  .ok [field "PENDING" (sourcesText s.attention.pending),
       field "ENABLED" (sourcesText s.attention.enabled),
       field "MASTER" (onOff s.attention.master), field "LINE" (onOff s.attentionLine)]

def execGetAttention (fields : List Chars) (s : State) : Host.Outcome State Fault Refusal :=
  report (parseNothing fields) getAttentionAnswer s

/-- Writes one value to the flags of the sources named. -/
def writeFlags (names : List Source) (b : Bool) (flags : Vector Bool 8) : Vector Bool 8 :=
  names.foldl (fun v x => v.set x.index b) flags

def clearAttentionAccept (names : List Source) (s : State) : State :=
  { s with attention := { s.attention with pending := writeFlags names false s.attention.pending } }

def clearAttentionAnswer (_ : List Source) (_ after : State) : Response :=
  .ok [field "PENDING" (sourcesText after.attention.pending)]

def execClearAttention (fields : List Chars) (s : State) : Host.Outcome State Fault Refusal :=
  request (parseClearAttention fields) (fun _ _ => none) clearAttentionAccept clearAttentionAnswer s

def enableAccept (q : EnableArgs) (s : State) : State :=
  { s with attention :=
      { s.attention with
        enabled := writeFlags q.sources q.action s.attention.enabled
        master := q.master.getD s.attention.master } }

def enableAnswer (_ : EnableArgs) (_ after : State) : Response :=
  .ok [field "ENABLED" (sourcesText after.attention.enabled),
       field "MASTER" (onOff after.attention.master)]

def execSetAttentionEnable (fields : List Chars) (s : State) : Host.Outcome State Fault Refusal :=
  request (parseEnable fields) (fun _ _ => none) enableAccept enableAnswer s

/-! ### SET_LINK and GET_IDENT (R205, R210) -/

def setLinkAccept (n : Nat) (s : State) : State := s.modLink fun k => { k with timeout := n }

def setLinkAnswer (n : Nat) (_ _ : State) : Response := .ok [field "TIMEOUT" (numText n)]

def execSetLink (fields : List Chars) (s : State) : Host.Outcome State Fault Refusal :=
  request (parseTimeout fields) (fun _ _ => none) setLinkAccept setLinkAnswer s

def getIdentAnswer (_ : Unit) (s : State) : Response :=
  .ok [field "MAKER" "ZANTOPEL".toList, field "MODEL" "AB-820".toList,
       field "ADDR" (twoDigits s.link.address), field "SPEED" (speedText s.link.switches.speed),
       field "MCOUNT" (numText s.metrology), field "CAL" (contactText s.calibration),
       field "TIMEOUT" (numText s.link.timeout), field "LOADS" (numText s.loads.length),
       field "RECIPES" (numText s.recipes.length)]

def execGetIdent (fields : List Chars) (s : State) : Host.Outcome State Fault Refusal :=
  report (parseNothing fields) getIdentAnswer s

/-! ### RESTART, FACTORY_CLEAR and UNKNOWN_REQUEST (R208, R209, R200) -/

/-- R208. -/
def restartReply (fields : List Chars) (sw : Switches) (s : State) : Reply :=
  if !fields.isEmpty then { state := s, response := .no .format, stopsTimer := false }
  else if s.loads.any fun l => l.state.inProgress then
    { state := s, response := .no .wrongState, stopsTimer := false }
  else { state := s.restartModule sw, response := .okWord "RESTART".toList, stopsTimer := true }

def execRestart (fields : List Chars) (sw : Switches) (s : State) : Host.Outcome State Fault Refusal :=
  event (State.takeFrame (restartReply fields sw)) s

/-- R209. -/
def factoryClearReply (fields : List Chars) (s : State) : Reply :=
  if !fields.isEmpty then { state := s, response := .no .format, stopsTimer := false }
  else if s.calibration != .closed then { state := s, response := .no .calOpen, stopsTimer := false }
  else if !s.loads.isEmpty then { state := s, response := .no .inUse, stopsTimer := false }
  else { state := s.clearFactory, response := .okWord "FACTORY_CLEAR".toList, stopsTimer := true }

def execFactoryClear (fields : List Chars) (s : State) : Host.Outcome State Fault Refusal :=
  event (State.takeFrame (factoryClearReply fields)) s

/-- R200(a): a body with no token or with no request word first is answered NO UNKNOWN. -/
def unknownReply (s : State) : Reply := { state := s, response := .no .unknown, stopsTimer := false }

/-- Whether tokens are those of an unknown request. -/
def isUnknown : List Chars → Bool
  | [] => true
  | w :: _ => (requestOf? w).isNone

/-- Tokens that begin with a request word are no unknown request: the event does not arise with them
(notes/assumptions/7.md). -/
def execUnknownRequest (tokens : List Chars) (s : State) : Host.Outcome State Fault Refusal :=
  event (fun t => if isUnknown tokens then t.takeFrame unknownReply else t) s

/-! ### The port (R199) -/

/-- Whether the receiver is on: the port is half-duplex. -/
def State.receiverOn (s : State) : Bool := s.link.sending.isNone

/-- No frame is being received any more. -/
def State.dropFrame (s : State) : State := s.modLink fun k => { k with receiving := false }

/-- R199(c): a completed frame that fails a test is discarded. A frame that passes them is no invalid frame:
the event does not arise with it (notes/assumptions/7.md). -/
def State.takeInvalidFrame (frame : Chars) (s : State) : State :=
  if s.receiverOn && (frameBody? s.link.address frame).isNone then s.dropFrame else s

def execInvalidFrame (frame : Chars) (s : State) : Host.Outcome State Fault Refusal :=
  event (State.takeInvalidFrame frame) s

/-- R199(b): the 1 s limit of a frame. -/
def execFrameTimeout (s : State) : Host.Outcome State Fault Refusal := event State.dropFrame s

/-- R199(b): the length limit of a frame. -/
def State.takeLengthLimit (s : State) : State := s.dropFrame

def execFrameLengthLimit (s : State) : Host.Outcome State Fault Refusal := event State.takeLengthLimit s

/-- R199(a): a start character begins a new frame, unless the receiver is off. -/
def State.startFrame (s : State) : State :=
  if s.receiverOn then s.modLink fun k => { k with receiving := true } else s

def execFrameStartCharacter (s : State) : Host.Outcome State Fault Refusal := event State.startFrame s

/-- R199: the response has been sent, and the receiver is on again. -/
def execResponseSent (s : State) : Host.Outcome State Fault Refusal :=
  event (State.modLink fun k => { k with sending := none }) s

/-! ### LINK_TIMEOUT_EXPIRY (R198, R205(b)) -/

/-- R198: LINK_LOST at one arm. -/
def State.raiseLinkLost (a : ArmId) (s : State) : State :=
  if s.commissioned a && s.headIs a LoadState.preSettling then s.takeCause a (.cause .linkLost) .none
  else s

/-- R205(b). A timer that is stopped does not expire (notes/assumptions/7.md). -/
def State.expireLink (s : State) : State :=
  if s.link.timer.isSome then
    State.forAllFree (allArms.filter fun a => s.commissioned a && s.headIs a LoadState.preSettling)
      State.raiseLinkLost (s.modLink fun k => { k with timer := none })
  else s

def execLinkTimeoutExpiry (s : State) : Host.Outcome State Fault Refusal := event State.expireLink s

/-! ### POWER_RESTORE and SUPPLY_LOSS (R206, R207) -/

/-- R207. Supply may have been absent before or not: what was live is begun anew either way. -/
def execPowerRestore (inputs : Inputs) (s : State) : Host.Outcome State Fault Refusal :=
  .next (s.restorePower inputs)

def execSupplyLoss (s : State) : Host.Outcome State Fault Refusal := event State.losePower s

end Sys2Proof.Machine
end

