-- ==== Sys2Proof/Machine/Loads.lean ====
section
/-! DEFINITION. The load requests (chapter 1): AUTHORIZE, AMEND, CANCEL, HOLD, RESUME, END, GET_LOAD,
RETIRE_LOAD and LIST_LOADS. -/

namespace Sys2Proof.Machine

/-! ### AUTHORIZE (R17, R18) -/

/-- R17, checks 3 to 13. -/
def authorizeRefusal (q : AuthorizeArgs) (s : State) : Option Code :=
  let d := s.defn q.arm
  let r := (s.recipe q.recipe).getD noRecipe
  let db := bodyEnd q.preset r.flush d.a
  firstFailure
    [(!s.commissioned q.arm, .notCommissioned),
     ((s.arm q.arm).locked, .armLocked),
     (s.armLaneShut q.arm, .laneShut),
     ((s.recipe q.recipe).isNone, .noSuchRecipe),
     (r.retiring, .recipeRetiring),
     (decide (0 < r.r) && d.ethMeter.isNone, .noEthanolMeter),
     (!(r.adds.all fun x => d.injectors.any fun j => (s.injector j).addId == x.id), .noInjector),
     (decide (q.preset < r.flush + d.a + d.w), .range),
     (decide (d.sMax < bodyShare (ethTarget q.preset r.r) 0 db 0), .unreachable),
     ((s.load q.load).isSome, .duplicate),
     (decide (32 ≤ s.loads.length), .tableFull),
     (decide (3 ≤ (s.armQueue q.arm).length), .queueFull)]

/-- R18(g): the additive entry of a new record. -/
def newEntry (s : State) (d : ArmDef) (x : RecipeAdd) : AddEntry :=
  { id := x.id, dose := x.dose, tol := x.tol
    inj := (d.injectors.find? fun j => (s.injector j).addId == x.id).getD 0
    due := 0, fired := 0, proven := 0, missed := 0, consec := 0, verdict := none }

/-- R18: the record an accepted AUTHORIZE creates. -/
def newLoad (q : AuthorizeArgs) (s : State) : Load :=
  let d := s.defn q.arm
  let r := (s.recipe q.recipe).getD noRecipe
  let et := ethTarget q.preset r.r
  let db := bodyEnd q.preset r.flush d.a
  { number := q.load, tag := q.tag, arm := q.arm, recipe := q.recipe, rev := r.rev, preset := q.preset
    amends := 0, state := .authorized, phase := .body, admitFrom := none
    bt := baseTarget q.preset r.r, et := et, adds := r.adds.map (newEntry s d)
    base := Account.zero, eth := Account.zero, v := 0, va := 0, ea := 0, db := db
    rb := bodyShare et 0 db 0, share := 0, dev := 0, alarms := 0, peak := 0, vc := 0
    holds := [], holdDetails := [], resumes := 0, notices := [], stop1 := none, stop2 := none
    escalated := false, flushInc := false, rstLeft := 0, step := 1, pendingOut := none
    mca := s.metrology, mce := 0, outcome := none, frac := none, ethVerdict := none
    overrun := none }

def authorizeAccept (q : AuthorizeArgs) (s : State) : State :=
  State.raiseReference q.recipe { s with loads := s.loads ++ [newLoad q s] }

/-- The response of R18; POS is the record's position in its arm's queue. -/
def authorizeAnswer (q : AuthorizeArgs) (_ after : State) : Response :=
  .ok [field "LOAD" (numText q.load), field "STATE" LoadState.authorized.text,
       field "POS" (numText (after.armQueue q.arm).length)]

def execAuthorize (fields : List Chars) (s : State) : Host.Outcome State Fault Refusal :=
  request (parseAuthorize fields) authorizeRefusal authorizeAccept authorizeAnswer s

/-! ### AMEND (R19 to R21, R100) -/

/-- How R19(d) handles an AMEND by the record's state and phase. -/
inductive AmendMode
  | beforeFlow | inBody | late
deriving DecidableEq, Repr

def Load.amendMode (l : Load) : AmendMode :=
  match l.state with
  | .authorized => .beforeFlow
  | .admitting => if l.admitFrom == some .resume then .inBody else .beforeFlow
  | .flowing | .held => if l.phase == .body then .inBody else .late
  | .ending | .settling | .ended => .late

/-- R20: the checks of an AMEND before flow. -/
def amendEarlyRefusal (preset : Nat) (d : ArmDef) (r : Recipe) : Option Code :=
  firstFailure
    [(decide (preset < r.flush + d.a + d.w), .range),
     (decide (d.sMax < bodyShare (ethTarget preset r.r) 0 (bodyEnd preset r.flush d.a) 0), .unreachable)]

/-- R21: the checks of an AMEND in the body. -/
def amendBodyRefusal (preset : Nat) (d : ArmDef) (r : Recipe) (l : Load) : Option Code :=
  let et := ethTarget preset r.r
  firstFailure
    [(decide ((preset : Int) * 1000 - (max r.flush d.a : Nat) * 1000 - l.v < d.w * 1000), .tooLate),
     (decide (et < l.eth.gross), .unreachable),
     (decide (d.sMax < bodyShare et l.eth.gross (bodyEnd preset r.flush d.a) l.v), .unreachable)]

def amendRefusal (q : AmendArgs) (s : State) : Option Code :=
  match s.load q.load with
  | none => some .noSuchLoad
  | some l =>
    match l.amendMode with
    | .beforeFlow => amendEarlyRefusal q.preset (s.defn l.arm) (s.recipeOf l)
    | .inBody => amendBodyRefusal q.preset (s.defn l.arm) (s.recipeOf l) l
    | .late => some .tooLate

/-- The record's line drawn anew from an anchor for a preset (R20(c), R100). -/
def Load.redraw (preset va ea : Nat) (d : ArmDef) (r : Recipe) (l : Load) : Load :=
  let et := ethTarget preset r.r
  let db := bodyEnd preset r.flush d.a
  { l with
    preset := preset, bt := baseTarget preset r.r, et := et, va := va, ea := ea, db := db
    rb := bodyShare et ea db va, amends := min 255 (l.amends + 1) }

def amendAccept (q : AmendArgs) (s : State) : State :=
  s.modLoad q.load fun l =>
    if l.amendMode == .inBody then l.redraw q.preset l.v l.eth.gross (s.defn l.arm) (s.recipeOf l)
    else l.redraw q.preset 0 0 (s.defn l.arm) (s.recipeOf l)

def amendAnswer (q : AmendArgs) (_ after : State) : Response :=
  let l := after.load q.load
  .ok [field "LOAD" (numText q.load), field "PRESET" (numText ((l.map (·.preset)).getD 0)),
       field "AMENDS" (numText ((l.map (·.amends)).getD 0))]

def execAmend (fields : List Chars) (s : State) : Host.Outcome State Fault Refusal :=
  request (parseAmend fields) amendRefusal amendAccept amendAnswer s

/-! ### HOLD, RESUME, END and CANCEL (R23 to R26) -/

/-- NO_SUCH_LOAD, or WRONG_STATE outside the states a test allows. -/
def stateRefusal (p : LoadState → Bool) (n : Nat) (s : State) : Option Code :=
  match s.load n with
  | none => some .noSuchLoad
  | some l => if p l.state then none else some .wrongState

/-- The arm of the record with a number. -/
def State.armOf (s : State) (n : Nat) : ArmId := ((s.load n).map (·.arm)).getD 0

/-- The response of HOLD and END: LOAD and the STATE after the request. -/
def stateAnswer (n : Nat) (_ after : State) : Response :=
  .ok [field "LOAD" (numText n),
       field "STATE" (((after.load n).map fun l => l.state.text).getD ['-'])]

def holdAccept (n : Nat) (s : State) : State := s.takeCause (s.armOf n) (.cause .hostHold) .none

def execHold (fields : List Chars) (s : State) : Host.Outcome State Fault Refusal :=
  request (parseLoad fields) (stateRefusal LoadState.preSettling) holdAccept stateAnswer s

/-- R24: a load in any state but HELD is WRONG_STATE, a HELD load that fails the test of R191 STILL_HELD. -/
def resumeRefusal (n : Nat) (s : State) : Option Code :=
  match s.load n with
  | none => some .noSuchLoad
  | some l =>
    firstFailure [(l.state != .held, .wrongState), (!s.resumeOk l.arm l, .stillHeld)]

def resumeAccept (n : Nat) (s : State) : State :=
  match s.load n with
  | none => s
  | some l => s.takeResume l.arm l

def resumeAnswer (n : Nat) (_ after : State) : Response :=
  let l := after.load n
  .ok [field "LOAD" (numText n), field "STATE" ((l.map fun l => l.state.text).getD ['-']),
       field "RESUMES" (numText ((l.map (·.resumes)).getD 0))]

def execResume (fields : List Chars) (s : State) : Host.Outcome State Fault Refusal :=
  request (parseLoad fields) resumeRefusal resumeAccept resumeAnswer s

def endAccept (n : Nat) (s : State) : State := s.takeCause (s.armOf n) .endRequest .none

def execEnd (fields : List Chars) (s : State) : Host.Outcome State Fault Refusal :=
  request (parseLoad fields) (stateRefusal LoadState.preSettling) endAccept stateAnswer s

/-- R26(c): the record leaves the table and its arm's queue, and its recipe's reference is released. -/
def cancelAccept (n : Nat) (s : State) : State :=
  match s.load n with
  | none => s
  | some l =>
    State.lowerReference l.recipe { s with loads := dropFirst (fun x => x.number == n) s.loads }

def cancelAnswer (n : Nat) (_ _ : State) : Response := .ok [field "LOAD" (numText n)]

def execCancel (fields : List Chars) (s : State) : Host.Outcome State Fault Refusal :=
  request (parseLoad fields) (stateRefusal (· == .authorized)) cancelAccept cancelAnswer s

/-! ### GET_LOAD, RETIRE_LOAD and LIST_LOADS (R27, R28, R4) -/

/-- A field that is left out where its value is absent (R1, R27(b)). -/
def optField (k : String) (v : Option Chars) : List Field :=
  match v with
  | none => []
  | some t => [field k t]

/-- The fields of Table 1.1, in the table's order (R27). -/
def loadFields (l : Load) : List Field :=
  [field "LOAD" (numText l.number)] ++ optField "TAG" l.tag ++
  [field "ARM" (armText l.arm), field "RECIPE" (numText l.recipe), field "REV" (numText l.rev),
   field "PRESET" (numText l.preset), field "AMENDS" (numText l.amends), field "STATE" l.state.text] ++
  optField "PHASE" (l.stopPhase.map Phase.text) ++
  optField "FROM" (if l.state == .admitting then l.admitFrom.map AdmitFrom.text else none) ++
  [field "BT" (numText l.bt), field "ET" (numText l.et)] ++
  numberedFields "ADD" (l.adds.map AddEntry.text) ++
  [field "BASE" l.base.text, field "ETH" l.eth.text, field "V" (numText l.v),
   field "VA" (numText l.va), field "EA" (numText l.ea), field "DB" (numText l.db),
   field "RB" (numText l.rb), field "S" (numText l.share), field "DEV" (intText l.dev),
   field "ALARMS" (numText l.alarms), field "PEAK" (numText l.peak),
   field "HOLDS" (listText (l.holds.map Cause.text)), field "RESUMES" (numText l.resumes),
   field "NOTICES" (listText (l.notices.map Cause.text))] ++
  optField "STOP1" (l.stop1.map StopRecord.text) ++ optField "STOP2" (l.stop2.map StopRecord.text) ++
  [field "ESC" (yesNo l.escalated), field "FLUSHINC" (yesNo l.flushInc),
   field "RSTLEFT" (numText l.rstLeft), field "STEP" (numText l.step)] ++
  optField "PENDING" (if l.state == .settling then l.pendingOut.map PendingOutcome.text else none) ++
  [field "MCA" (numText l.mca), field "MCE" (numText l.mce)] ++
  (if l.state == .ended then
    optField "OUTCOME" (l.outcome.map LoadOutcome.text) ++ optField "FRAC" (l.frac.map numText) ++
    optField "EVERDICT" (l.ethVerdict.map EthVerdict.text) ++ optField "OVERRUN" (l.overrun.map numText)
   else [])

/-- The flow average of an arm's meter in a role: QE is 0 for an arm with no ethanol meter (R27(c)). For an arm
no longer commissioned, which R57 lets an ENDED record outlive, both are 0 (DESIGN CHOICE,
notes/assumptions/26.md). -/
def State.flowAverage (s : State) (a : ArmId) (r : Role) : Nat :=
  (((s.arm a).defn.bind fun d => d.meterOf r).map fun m => (s.meter m).qAvg).getD 0

def getLoadAnswer (n : Nat) (s _ : State) : Response :=
  match s.load n with
  | none => .no .noSuchLoad
  | some l =>
    .ok (loadFields l ++ [field "QB" (numText (s.flowAverage l.arm .base)),
      field "QE" (numText (s.flowAverage l.arm .ethanol))])

def execGetLoad (fields : List Chars) (s : State) : Host.Outcome State Fault Refusal :=
  request (parseLoad fields) (stateRefusal fun _ => true) (fun _ t => t) getLoadAnswer s

/-- R28(c). -/
def retireAccept (n : Nat) (s : State) : State :=
  { s with loads := dropFirst (fun x => x.number == n) s.loads }

def retireAnswer (n : Nat) (_ after : State) : Response :=
  .ok [field "LOAD" (numText n), field "COUNT" (numText after.loads.length)]

def execRetireLoad (fields : List Chars) (s : State) : Host.Outcome State Fault Refusal :=
  request (parseLoad fields) (stateRefusal (· == .ended)) retireAccept retireAnswer s

def listLoadsAnswer (_ : Unit) (s : State) : Response :=
  .ok (field "COUNT" (numText s.loads.length) ::
    numberedFields "L" (s.loads.map fun l =>
      joinWith ',' [numText l.number, armText l.arm, l.state.text]))

def execListLoads (fields : List Chars) (s : State) : Host.Outcome State Fault Refusal :=
  report (parseNothing fields) listLoadsAnswer s

end Sys2Proof.Machine
end

