-- ==== Sys2Proof/Machine/Recipes.lean ====
section
/-! DEFINITION. The recipe requests (chapter 2): STORE_RECIPE, GET_RECIPE, RETIRE_RECIPE and
LIST_RECIPES. -/

namespace Sys2Proof.Machine

/-! ### STORE_RECIPE (R33 to R38) -/

/-- R36: the placement of a store that has passed R33 to R35. -/
def storeRefusal (x : Recipe) (s : State) : Option Code :=
  match s.recipe x.code with
  | none => if 32 ≤ s.recipes.length then some .recipeTableFull else none
  | some r => firstFailure [(r.retiring, .recipeRetiring), (decide (0 < r.refs), .inUse)]

/-- R37 and R38: a new record at revision 0, or the present one replaced whole at the next revision. -/
def storeAccept (x : Recipe) (s : State) : State :=
  match s.recipe x.code with
  | none => { s with recipes := insertRecipe x s.recipes }
  | some _ => s.modRecipe x.code fun r => { x with rev := (r.rev + 1) % 65536 }

def storeAnswer (x : Recipe) (_ after : State) : Response :=
  .ok [field "CODE" (numText x.code), field "REV" (numText (((after.recipe x.code).map (·.rev)).getD 0)),
       field "COUNT" (numText after.recipes.length)]

def execStoreRecipe (fields : List Chars) (s : State) : Host.Outcome State Fault Refusal :=
  request (parseStore fields) storeRefusal storeAccept storeAnswer s

/-! ### GET_RECIPE, RETIRE_RECIPE and LIST_RECIPES (R42 to R44) -/

def recipeRefusal (c : Nat) (s : State) : Option Code :=
  if (s.recipe c).isNone then some .noSuchRecipe else none

/-- The fields of R42(d). -/
def recipeFields (r : Recipe) : List Field :=
  [field "CODE" (numText r.code), field "REV" (numText r.rev),
   field "STATE" (recipeStateText r.retiring), field "REFS" (numText r.refs)] ++
  (match r.name with
   | none => []
   | some t => [field "NAME" t]) ++
  [field "R" (numText r.r), field "TOL" (numText r.tol), field "FLUSH" (numText r.flush),
   field "H" (numText r.h), field "STEPS" (numText r.profile.length)] ++
  numberedFields "STEP" (r.profile.map Step.text) ++
  [field "ADDS" (numText r.adds.length)] ++ numberedFields "ADD" (r.adds.map RecipeAdd.text)

def getRecipeAnswer (c : Nat) (s _ : State) : Response :=
  match s.recipe c with
  | none => .no .noSuchRecipe
  | some r => .ok (recipeFields r)

def execGetRecipe (fields : List Chars) (s : State) : Host.Outcome State Fault Refusal :=
  request (parseCode fields) recipeRefusal (fun _ t => t) getRecipeAnswer s

/-- R44: an unused ACTIVE recipe is removed, one in use becomes RETIRING, a RETIRING one is unchanged. -/
def retireRecipeAccept (c : Nat) (s : State) : State :=
  match s.recipe c with
  | none => s
  | some r =>
    if r.retiring then s
    else if r.refs = 0 then { s with recipes := dropFirst (fun x => x.code == c) s.recipes }
    else s.modRecipe c fun x => { x with retiring := true }

def retireRecipeAnswer (c : Nat) (_ after : State) : Response :=
  match after.recipe c with
  | none => .ok [field "CODE" (numText c), field "STATE" "REMOVED".toList,
      field "COUNT" (numText after.recipes.length)]
  | some r => .ok [field "CODE" (numText c), field "STATE" "RETIRING".toList,
      field "REFS" (numText r.refs)]

def execRetireRecipe (fields : List Chars) (s : State) : Host.Outcome State Fault Refusal :=
  request (parseCode fields) recipeRefusal retireRecipeAccept retireRecipeAnswer s

def listRecipesAnswer (_ : Unit) (s : State) : Response :=
  .ok (field "COUNT" (numText s.recipes.length) ::
    numberedFields "C" (s.recipes.map fun r =>
      joinWith ',' [numText r.code, numText r.rev, recipeStateText r.retiring, numText r.refs]))

def execListRecipes (fields : List Chars) (s : State) : Host.Outcome State Fault Refusal :=
  report (parseNothing fields) listRecipesAnswer s

end Sys2Proof.Machine
end

