-- ==== Sys2Proof/Machine/Stops.lean ====
section
/-! DEFINITION. The stop unit's commands and the input changes it reads (chapter 9, R67): SET_CAUSE,
GET_CAUSES, PERMISSIVE_INPUT_CHANGE, EMERGENCY_STOP_ACTIVE, EMERGENCY_STOP_RELEASE and
CALIBRATION_SWITCH_CHANGE. -/

namespace Sys2Proof.Machine

/-! ### SET_CAUSE and GET_CAUSES (R184, R185) -/

def setCauseAccept (q : CauseArgs) (s : State) : State :=
  { s with causes := s.causes.set q.cause.index q.cls }

def setCauseAnswer (q : CauseArgs) (_ _ : State) : Response :=
  .ok [field "CODE" (numText q.cause.code), field "NAME" q.cause.text, field "CLASS" q.cls.text]

def execSetCause (fields : List Chars) (s : State) : Host.Outcome State Fault Refusal :=
  request (parseSetCause fields) (fun _ _ => none) setCauseAccept setCauseAnswer s

def getCausesAnswer (_ : Unit) (s : State) : Response :=
  .ok (field "COUNT" (numText allCauses.length) ::
    numberedFields "C" (allCauses.map fun c => joinWith ',' [c.text, (s.causes[c.index]).text]))

def execGetCauses (fields : List Chars) (s : State) : Host.Outcome State Fault Refusal :=
  report (parseNothing fields) getCausesAnswer s

/-! ### PERMISSIVE_INPUT_CHANGE (R179, R180) -/

/-- The states in which a dropped permissive raises a cause (R180). -/
def LoadState.permissiveWatched : LoadState → Bool
  | .admitting | .flowing | .ending => true
  | .authorized | .held | .settling | .ended => false

/-- The cause of a dropped input (R180). -/
def PermUse.cause (u : PermUse) : Cause := if u.safety then .safetyPermissive else .permissive

/-- R180: a used input has left its required level. -/
def State.dropPermissive (a : ArmId) (k : PermId) (u : PermUse) (s : State) : State :=
  let s1 := s.modArm a fun x => Arm.derivePermissive { x with latched := insertInput k x.latched }
  if s1.headIs a LoadState.permissiveWatched then s1.takeCause a (.cause u.cause) (.input k) else s1

/-- A change of a permissive input: of an input in use (R179(b), R180), or of one that is not used or whose
arm is not commissioned, where the live level alone changes (R179(c)). A level that stands already is no
change. -/
def State.takePermissive (a : ArmId) (k : PermId) (level : Contact) (s : State) : State :=
  if (s.arm a).levels[k] = level then s
  else
    let s1 := s.modArm a fun x => { x with levels := x.levels.set k level }
    match (s.arm a).defn.bind fun d => d.perms[k] with
    | none => s1
    | some u =>
      if u.level = level then s1.modArm a Arm.derivePermissive else s1.dropPermissive a k u

def execPermissiveInputChange (a : ArmId) (k : PermId) (level : Contact) (s : State) :
    Host.Outcome State Fault Refusal :=
  event (State.takePermissive a k level) s

/-! ### Emergency stops (R195) -/

/-- R195: a change of the input from released to active. An input that is active already does not change. -/
def State.takeEmergency (n : LaneId) (s : State) : State :=
  if (s.lane n).emergency then s
  else State.emergencyTrip n (s.modLane n fun x => { x with emergency := true })

def execEmergencyStopActive (n : LaneId) (s : State) : Host.Outcome State Fault Refusal :=
  event (State.takeEmergency n) s

/-- R195: a change of the input to released changes the level alone. -/
def execEmergencyStopRelease (n : LaneId) (s : State) : Host.Outcome State Fault Refusal :=
  event (State.modLane n fun x => { x with emergency := false }) s

/-! ### CALIBRATION_SWITCH_CHANGE (R67) -/

def execCalibrationSwitchChange (level : Contact) (s : State) : Host.Outcome State Fault Refusal :=
  event (fun t => { t with calibration := level }) s

end Sys2Proof.Machine
end

