-- ==== Sys2Proof/Machine/Dispatch.lean ====
section
/-! DEFINITION. What each command does: one meaning for each row of the table. -/

namespace Sys2Proof.Machine

/-- The effect of a command on everything but the queue. -/
def exec (i : Instr) (s : State) : Host.Outcome State Fault Refusal :=
  match i with
  | .authorize f => Sys2Proof.Machine.execAuthorize f s
  | .amend f => Sys2Proof.Machine.execAmend f s
  | .cancel f => Sys2Proof.Machine.execCancel f s
  | .hold f => Sys2Proof.Machine.execHold f s
  | .resume f => Sys2Proof.Machine.execResume f s
  | .endLoad f => Sys2Proof.Machine.execEnd f s
  | .getLoad f => Sys2Proof.Machine.execGetLoad f s
  | .retireLoad f => Sys2Proof.Machine.execRetireLoad f s
  | .listLoads f => Sys2Proof.Machine.execListLoads f s
  | .storeRecipe f => Sys2Proof.Machine.execStoreRecipe f s
  | .getRecipe f => Sys2Proof.Machine.execGetRecipe f s
  | .retireRecipe f => Sys2Proof.Machine.execRetireRecipe f s
  | .listRecipes f => Sys2Proof.Machine.execListRecipes f s
  | .setArm f => Sys2Proof.Machine.execSetArm f s
  | .getArm f => Sys2Proof.Machine.execGetArm f s
  | .decommissionArm f => Sys2Proof.Machine.execDecommissionArm f s
  | .getArmStatus f => Sys2Proof.Machine.execGetArmStatus f s
  | .setMeter f => Sys2Proof.Machine.execSetMeter f s
  | .getMeter f => Sys2Proof.Machine.execGetMeter f s
  | .setInjector f => Sys2Proof.Machine.execSetInjector f s
  | .getInjector f => Sys2Proof.Machine.execGetInjector f s
  | .setHeader f => Sys2Proof.Machine.execSetHeader f s
  | .getHeader f => Sys2Proof.Machine.execGetHeader f s
  | .setCause f => Sys2Proof.Machine.execSetCause f s
  | .getCauses f => Sys2Proof.Machine.execGetCauses f s
  | .getPermissives f => Sys2Proof.Machine.execGetPermissives f s
  | .resetArm f => Sys2Proof.Machine.execResetArm f s
  | .resetLane f => Sys2Proof.Machine.execResetLane f s
  | .getAttention f => Sys2Proof.Machine.execGetAttention f s
  | .clearAttention f => Sys2Proof.Machine.execClearAttention f s
  | .setAttentionEnable f => Sys2Proof.Machine.execSetAttentionEnable f s
  | .setLink f => Sys2Proof.Machine.execSetLink f s
  | .getIdent f => Sys2Proof.Machine.execGetIdent f s
  | .restart f sw => Sys2Proof.Machine.execRestart f sw s
  | .factoryClear f => Sys2Proof.Machine.execFactoryClear f s
  | .unknownRequest ts => Sys2Proof.Machine.execUnknownRequest ts s
  | .invalidFrame fr => Sys2Proof.Machine.execInvalidFrame fr s
  | .frameTimeout => Sys2Proof.Machine.execFrameTimeout s
  | .startPress a => Sys2Proof.Machine.execStartPress a s
  | .stopPress a => Sys2Proof.Machine.execStopPress a s
  | .meterPulse m => Sys2Proof.Machine.execMeterPulse m s
  | .temperatureSample m v => Sys2Proof.Machine.execTemperatureSample m v s
  | .flowReading m => Sys2Proof.Machine.execFlowReading m s
  | .rampTick a => Sys2Proof.Machine.execRampTick a s
  | .permissiveInputChange a k x => Sys2Proof.Machine.execPermissiveInputChange a k x s
  | .emergencyStopActive n => Sys2Proof.Machine.execEmergencyStopActive n s
  | .emergencyStopRelease n => Sys2Proof.Machine.execEmergencyStopRelease n s
  | .headerPressureInputChange x => Sys2Proof.Machine.execHeaderPressureInputChange x s
  | .calibrationSwitchChange x => Sys2Proof.Machine.execCalibrationSwitchChange x s
  | .proofArrival j => Sys2Proof.Machine.execProofArrival j s
  | .proofInputOpen j => Sys2Proof.Machine.execProofInputOpen j s
  | .supplyLowInputChange j b => Sys2Proof.Machine.execSupplyLowInputChange j b s
  | .pulseWidthExpiry j => Sys2Proof.Machine.execPulseWidthExpiry j s
  | .proofTimerExpiry j => Sys2Proof.Machine.execProofTimerExpiry j s
  | .noFlowTimerExpiry a r => Sys2Proof.Machine.execNoFlowTimerExpiry a r s
  | .settleTimerExpiry a => Sys2Proof.Machine.execSettleTimerExpiry a s
  | .maximumSettleExpiry a => Sys2Proof.Machine.execMaximumSettleExpiry a s
  | .linkTimeoutExpiry => Sys2Proof.Machine.execLinkTimeoutExpiry s
  | .powerRestore inp => Sys2Proof.Machine.execPowerRestore inp s
  | .admission => Sys2Proof.Machine.execAdmission s
  | .loadEntersEnded a => Sys2Proof.Machine.execLoadEntersEnded a s
  | .frameStartCharacter => Sys2Proof.Machine.execFrameStartCharacter s
  | .frameLengthLimit => Sys2Proof.Machine.execFrameLengthLimit s
  | .supplyLoss => Sys2Proof.Machine.execSupplyLoss s
  | .responseSent => Sys2Proof.Machine.execResponseSent s

end Sys2Proof.Machine
end

