-- ==== Sys2Proof/WellFormed.lean ====
section
/-! DEFINITION. The commands that can arise: the tokens of a request are what a frame can carry (R199,
R200), an unknown request has no request word first, and the characters of an invalid frame hold neither a
start character nor a carriage return. The identifiers of arms, lanes and channels need no check: their
types hold just the manual's numbers. -/

namespace Sys2Proof

open Machine

/-- A character a token can hold: printable, neither a space nor the start character. -/
def tokenChar (c : Char) : Bool := decide ('!' ≤ c) && decide (c ≤ '~') && c != '@'

/-- A token: at least one character, each allowed. -/
def tokenOk (t : Chars) : Bool := !t.isEmpty && t.all tokenChar

/-- A character of a frame between its start character and its carriage return: ASCII, neither of the
two. -/
def frameChar (c : Char) : Bool := decide (c.toNat < 128) && c != '@' && c != '\r'

/-- A frame that is complete: from its start character to its carriage return it stays below the 520
characters at which a frame without an end character is abandoned (R199(b)). -/
def frameLengthOk (frame : Chars) : Bool := decide (frame.length + 1 < 520)

/-- The length of the frame that carries a list of tokens, one space between. -/
def tokensFit (ts : List Chars) : Bool := decide ((joinWith ' ' ts).length + 7 < 520)

/-- The word an unknown request begins with is no request word. -/
def unknownWord : List Chars → Bool
  | [] => true
  | w :: _ => (requestOf? w).isNone

/-- The commands that can arise. -/
def Instr.wellFormed (i : Instr) : Bool :=
  (match requestTokens i with
   | some ts => ts.all tokenOk && tokensFit ts
   | none => true) &&
  (match i with
   | .unknownRequest ts => unknownWord ts
   | .invalidFrame frame => frame.all frameChar && frameLengthOk frame
   | _ => true)

end Sys2Proof
end

