-- ==== Sys2Proof/Safety.lean ====
section
/-! DEFINITION. What the claims speak of: a module that can take a frame, the state once a frame is
answered, what two states share, and what holds of every state a run reaches, rule by rule. -/

namespace Sys2Proof.Machine

/-! ### Requests -/

/-- The module has its supply and is not sending, so a valid frame is taken (R199, R206). -/
def State.ready (s : State) : Prop := s.powered = true ∧ s.link.sending = none

/-- The state once a request has been answered: `after` is what the request made of `before`. The frame is
finished, the link timer runs for the setting now in force or is stopped where that is 0 (R205(a)), and the
response is sent with the address in force before (R200). -/
def State.answered (before after : State) (r : Response) : State :=
  { after with
    link := { after.link with
      receiving := false
      timer := if after.link.timeout = 0 then none else some after.link.timeout
      sending := some { address := before.link.address, response := r } } }

/-- The same, the link timer stopped (R205(c), R208, R209). -/
def State.answeredStopped (before after : State) (r : Response) : State :=
  { after with
    link := { after.link with
      receiving := false
      timer := none
      sending := some { address := before.link.address, response := r } } }

/-- A command that a valid frame brings: the tokens it was sent with, those of an unknown request beginning
with no request word. -/
def isRequest (c : Instr) : Prop :=
  (requestTokens c).isSome = true ∧ ∀ ts, c = .unknownRequest ts → unknownWord ts = true

/-! ### Settings -/

/-- The settings of a meter channel (Table 4.1). -/
def Meter.settings (m : Meter) : Nat × Nat × Nat × Nat × Nat := (m.k, m.mf, m.beta, m.tDepth, m.qDepth)

/-- The settings of an injector channel (Table 8.1). -/
def Injector.settings (j : Injector) : Nat × Nat × Nat × Nat × Bool :=
  (j.addId, j.stroke, j.width, j.proofTo, j.supplyUsed)

/-- The settings of the header (Table 7.1). -/
def Header.settings (h : Header) : Nat × Bool := (h.cap, h.pressureUsed)

/-! ### Header membership -/

/-- Whether an arm is a participant of the header. -/
def State.participates (s : State) (a : ArmId) : Bool := s.header.parts.any fun p => p.arm == a

/-- Whether an arm stands in the admission queue. -/
def State.waits (s : State) (a : ArmId) : Bool := s.header.queue.contains a

/-! ### What holds of every state -/

/-- R150, R154: the admission queue holds arms whose head load is in ADMITTING, the participant set arms whose head load
is FLOWING in BODY, each at most once. -/
def State.headerOk (s : State) : Prop :=
  (∀ a ∈ s.header.queue, s.headIs a (· == .admitting) = true) ∧
  (∀ p ∈ s.header.parts, (s.head p.arm).any Load.inBody = true) ∧
  s.header.queue.Nodup ∧ (s.header.parts.map (·.arm)).Nodup

/-- R2: at most 32 records, no two with one load number. -/
def State.loadTableOk (s : State) : Prop := s.loads.length ≤ 32 ∧ (s.loads.map (·.number)).Nodup

/-- R3: an arm's queue holds at most three records, and only its head may be in a state other than
AUTHORIZED. -/
def State.queuesOk (s : State) : Prop :=
  ∀ a, (s.armQueue a).length ≤ 3 ∧ ∀ l ∈ (s.armQueue a).drop 1, l.state = .authorized

/-- R1: a record carries an outcome and verdicts exactly when it is ENDED. -/
def Load.recordOk (l : Load) : Prop :=
  l.outcome.isSome = (l.state == .ended) ∧ l.frac.isSome = (l.state == .ended) ∧
  l.ethVerdict.isSome = (l.state == .ended) ∧ l.overrun.isSome = (l.state == .ended) ∧
  ∀ e ∈ l.adds, e.verdict.isSome = (l.state == .ended)

def State.recordsOk (s : State) : Prop := ∀ l ∈ s.loads, l.recordOk

/-- Table 1.1: each net carry is 0 … 999,999. -/
def State.carriesOk (s : State) : Prop := ∀ l ∈ s.loads, l.base.carry < 1000000 ∧ l.eth.carry < 1000000

/-- R31: at most 32 recipes, in ascending code order, no two with one code. -/
def State.recipeTableOk (s : State) : Prop :=
  s.recipes.length ≤ 32 ∧ (s.recipes.map (·.code)).Pairwise (· < ·)

/-- R70: every valve command is 0 … 4095. -/
def State.valvesInRange (s : State) : Prop := ∀ a, (s.arm a).valveBase ≤ 4095 ∧ (s.arm a).valveEth ≤ 4095

/-- R133: both valve commands are 0 unless the head load is FLOWING or ENDING, and the ethanol command is 0
unless that load is FLOWING in BODY. -/
def State.valvesFollowLoad (s : State) : Prop :=
  ∀ a, (s.headIs a LoadState.delivers = false → (s.arm a).valveBase = 0 ∧ (s.arm a).valveEth = 0) ∧
    ((s.head a).any Load.inBody = false → (s.arm a).valveEth = 0)

/-- R152: no grant exceeds its participant's demand, and the sum of the grants never exceeds the effective
capacity. -/
def State.grantsOk (s : State) : Prop :=
  (∀ p ∈ s.header.parts, p.grant ≤ p.demand) ∧ (s.header.parts.map (·.grant)).sum ≤ s.header.effCap

/-- R160, R168: a channel has a stroke load and a running proof timer exactly while it is not IDLE, and a
running pulse-width timer exactly while it is FIRING. -/
def Injector.strokeOk (j : Injector) : Prop :=
  j.strokeLoad.isSome = (j.state != .idle) ∧ j.proofTimer.isSome = (j.state != .idle) ∧
  j.pulseTimer.isSome = (j.state == .firing)

def State.strokesOk (s : State) : Prop := ∀ j, (s.injector j).strokeOk

/-- R179: the permissive flag of every arm is the one its mask and levels give. -/
def State.permissivesOk (s : State) : Prop := ∀ a, (s.arm a).permissive = (s.arm a).derivedPermissive

/-- R183: the class of every code is one of the classes allowed for it. -/
def State.causesOk (s : State) : Prop := ∀ c : Cause, s.causes[c.index] ∈ c.allowed

/-- R59, R61: an arm has a lock record exactly while it is LOCKED, a lane a shut cause exactly while it is
SHUT. -/
def State.locksOk (s : State) : Prop :=
  (∀ a, (s.arm a).lockRecord.isSome = (s.arm a).locked) ∧ ∀ n, (s.lane n).shutCause.isSome = (s.lane n).shut

end Sys2Proof.Machine
end

