-- ==== Sys2Proof/Certificates/Slice0/Obligations.lean ====
section
/-! DEFINITION. The statements about the AB-820, each a proposition; the numbered rules are those of the
manual. -/

open Sys2Proof Sys2Proof.Machine

/-! ### The machine as a whole -/

/-- One step takes the command at the front of the queue and runs it on the state with the queue's rest. -/
def Obligations.StepTakesTheFront : Prop :=
  ∀ (c : Instr) (rest : List Instr) (s : State),
    step { s with pending := c :: rest } = exec c { s with pending := rest }

/-- No command, in whatever state, stops the block, and none touches the queue of those that wait. -/
def Obligations.EveryCommandGoesOn : Prop :=
  ∀ (c : Instr) (s : State), ∃ t, exec c s = .next t ∧ t.pending = s.pending

/-- R206, R199: without supply no event or request changes anything, and while the module sends a response its receiver
is off, so a request sent then is lost. That no command but the return of supply acts in a module without supply is the
model's choice (log entry 10), and so is how long a response is being sent (log entry 12). -/
def Obligations.CommandsCanBeLost : Prop :=
  ∀ (c : Instr) (s : State), (∀ inp, c ≠ .powerRestore inp) →
    s.powered = false ∨ ((requestTokens c).isSome = true ∧ s.link.sending.isSome = true) →
    exec c s = .next s

/-! ### Frames, requests and refusals (R199, R200, R205) -/

/-- R199, R200: the frame a request is sent in, taken by the module it is addressed to, brings that request
back, whatever its tokens. That a RESTART carries the switch positions it finds is the model's choice (log entry 13). -/
def Obligations.FrameBringsTheRequest : Prop :=
  ∀ (address : Nat) (sw : Switches) (i : Instr) (frame : Chars), 1 ≤ address → address ≤ 31 →
    i.wellFormed = true → requestFrame address i = some frame →
    frameCommand address (switchesOf sw i) frame = i

/-- R199(c): a frame that carries another module's address, and one whose four check characters are not the
hexadecimal digits of the check worked out over its address and body, are invalid. -/
def Obligations.TestedFramesAreInvalid : Prop :=
  (∀ (mine other : Nat) (sw : Switches) (body : Chars), mine ≤ 31 → other ≤ 31 → mine ≠ other →
    frameCommand mine sw (frameInside other body) = .invalidFrame (frameInside other body)) ∧
  ∀ (address : Nat) (sw : Switches) (body check : Chars), check.length = 4 →
    hexNum? check ≠ some (crc16 (twoDigits address ++ body)).toNat →
    frameCommand address sw (twoDigits address ++ body ++ check) =
      .invalidFrame (twoDigits address ++ body ++ check)

/-- R200, R205(a): a valid frame is answered with one response, sent with the address in force before it, and
restarts the link timer for the setting in force after it. RESTART and FACTORY_CLEAR, which stop the timer
when they are accepted, have their own statements. -/
def Obligations.ValidFrameIsAnsweredOnce : Prop :=
  ∀ (c : Instr) (s t : State), s.ready → isRequest c → (∀ f sw, c ≠ .restart f sw) →
    (∀ f, c ≠ .factoryClear f) → exec c s = .next t →
    (∃ r, t.link.sending = some { address := s.link.address, response := r }) ∧
    t.link.receiving = false ∧
    t.link.timer = (if t.link.timeout = 0 then none else some t.link.timeout)

/-- The refusal code with which a request fails the form and range checks that its rule makes before it looks at the
state; none for a request that passes them, and for a command that is no request. -/
def Sys2Proof.formError (c : Instr) : Option Code :=
  let code {α : Type} : Except Code α → Option Code
    | .error e => some e
    | .ok _ => none
  match c with
  | .authorize f => code (parseAuthorize f)
  | .amend f => code (parseAmend f)
  | .cancel f | .hold f | .resume f | .endLoad f | .getLoad f | .retireLoad f => code (parseLoad f)
  | .storeRecipe f => code (parseStore f)
  | .getRecipe f | .retireRecipe f => code (parseCode f)
  | .setArm f => code (parseSetArm f)
  | .getArm f | .decommissionArm f | .getArmStatus f | .resetArm f | .getPermissives f => code (parseArm f)
  | .resetLane f => code (parseLane f)
  | .setMeter f => code (parseSetMeter f)
  | .getMeter f => code (parseMeter f)
  | .setInjector f => code (parseSetInjector f)
  | .getInjector f => code (parseInjector f)
  | .setHeader f => code (parseSetHeader f)
  | .setCause f => code (parseSetCause f)
  | .clearAttention f => code (parseClearAttention f)
  | .setAttentionEnable f => code (parseEnable f)
  | .setLink f => code (parseTimeout f)
  | .listLoads f | .listRecipes f | .getHeader f | .getCauses f | .getAttention f | .getIdent f | .restart f _
  | .factoryClear f => code (parseNothing f)
  | _ => none

/-- R200: a request answered NO changes no state but the link timer, which the valid frame restarts. A request that fails
its form or range checks is answered NO with the code of the check that fails, whatever the state. -/
def Obligations.RefusedRequestChangesNothing : Prop :=
  (∀ (c : Instr) (s t : State) (a : Nat) (code : Code), s.ready → (requestTokens c).isSome = true →
    exec c s = .next t → t.link.sending = some { address := a, response := .no code } →
    t = s.answered s (.no code)) ∧
  ∀ (c : Instr) (s : State) (code : Code), s.ready → formError c = some code →
    exec c s = .next (s.answered s (.no code))

/-- R199, R200(a): an unknown request is answered NO UNKNOWN; a frame that fails a test, one not finished within
1 s and one that grows too long are dropped without a response; a start character begins a frame unless a
response is being sent; the end of the response turns the receiver on again. Nothing else changes. -/
def Obligations.PortEventsTouchThePortAlone : Prop :=
  ∀ (s : State), s.powered = true →
    (∀ ts, s.link.sending = none → unknownWord ts = true →
      exec (.unknownRequest ts) s = .next (s.answered s (.no .unknown))) ∧
    (∀ frame, s.link.sending = none → frameBody? s.link.address frame = none →
      exec (.invalidFrame frame) s = .next { s with link := { s.link with receiving := false } }) ∧
    exec .frameTimeout s = .next { s with link := { s.link with receiving := false } } ∧
    exec .frameLengthLimit s = .next { s with link := { s.link with receiving := false } } ∧
    exec .frameStartCharacter s =
      .next (if s.link.sending = none then { s with link := { s.link with receiving := true } } else s) ∧
    exec .responseSent s = .next { s with link := { s.link with sending := none } }

/-- The form and range checks of a request that carries LOAD alone (R23 to R28), and of AUTHORIZE (R17, checks 1 and 2).
FORMAT: a required keyword missing or repeated, TAG repeated, any other keyword, a number that is not in decimal digits.
Else RANGE where a number or the tag is out of range, in whatever order the fields stand. That a text with a second "="
is FORMAT is R200(b); which characters are printable is the model's choice (log entry 4). -/
def Obligations.NumberFieldsAreRead : Prop :=
  let notDecimal (v : Chars) : Prop := v = [] ∨ ∃ c ∈ v, c.isDigit = false
  let carries (ts : List Chars) (key : String) : Nat :=
    (ts.filter fun t => (key.toList ++ ['=']).isPrefixOf t).length
  (∀ n : Nat, parseLoad ["LOAD=".toList ++ numText n] =
    if 1 ≤ n ∧ n ≤ 999999 then .ok n else .error .range) ∧
  (∀ ts : List Chars, carries ts "LOAD" ≠ 1 ∨ 2 ≤ ts.length → parseLoad ts = .error .format) ∧
  (∀ v : Chars, notDecimal v → parseLoad ["LOAD=".toList ++ v] = .error .format) ∧
  (∀ ts : List Chars,
    (∃ key ∈ ["LOAD", "ARM", "RECIPE", "PRESET"], carries ts key ≠ 1) ∨ 2 ≤ carries ts "TAG" ∨
      (∃ t ∈ ts, ∀ key ∈ ["LOAD", "ARM", "RECIPE", "PRESET", "TAG"],
        (key.toList ++ ['=']).isPrefixOf t = false) ∨
      (∃ key ∈ ["LOAD", "ARM", "RECIPE", "PRESET"], ∃ v, key.toList ++ '=' :: v ∈ ts ∧ notDecimal v) ∨
      (∃ v, "TAG=".toList ++ v ∈ ts ∧ (v = [] ∨ '=' ∈ v)) →
    parseAuthorize ts = .error .format) ∧
  ∀ (load arm recipe preset : Nat) (tag : Option Chars) (ts : List Chars),
    (∀ v, tag = some v → v ≠ [] ∧ '=' ∉ v) →
    ts.Perm (["LOAD=".toList ++ numText load, "ARM=".toList ++ numText arm,
      "RECIPE=".toList ++ numText recipe, "PRESET=".toList ++ numText preset] ++
      (tag.map fun v => "TAG=".toList ++ v).toList) →
    parseAuthorize ts =
      if h : 1 ≤ arm ∧ arm ≤ 8 then
        if 1 ≤ load ∧ load ≤ 999999 ∧ 1 ≤ recipe ∧ recipe ≤ 999 ∧ 100 ≤ preset ∧ preset ≤ 60000 ∧
            ∀ v ∈ tag, v.length ≤ 16 ∧ ∀ c ∈ v, '!' ≤ c ∧ c ≤ '~' then
          .ok { load := load, arm := ⟨arm - 1, by omega⟩, recipe := recipe, preset := preset, tag := tag }
        else .error .range
      else .error .range

/-! ### Load requests (chapter 1) -/

/-- R18: an AUTHORIZE that passes every check of R17 places a record in AUTHORIZED after all others, raises the
recipe's reference count and answers with the record's position in its arm's queue. Nothing else changes. -/
def Obligations.AuthorizeCreatesTheRecord : Prop :=
  ∀ (f : List Chars) (q : AuthorizeArgs) (d : ArmDef) (r : Recipe) (s : State),
    s.ready → parseAuthorize f = .ok q →
    (s.arm q.arm).defn = some d → (s.arm q.arm).locked = false → (s.lane d.lane).shut = false →
    s.recipe q.recipe = some r → r.retiring = false →
    (0 < r.r → d.ethMeter.isSome = true) →
    (∀ x ∈ r.adds, ∃ j ∈ d.injectors, (s.injector j).addId = x.id) →
    r.flush + d.a + d.w ≤ q.preset →
    bodyShare (ethTarget q.preset r.r) 0 (bodyEnd q.preset r.flush d.a) 0 ≤ d.sMax →
    (∀ l ∈ s.loads, l.number ≠ q.load) → s.loads.length < 32 → (s.armQueue q.arm).length < 3 →
    exec (.authorize f) s = .next (s.answered
      { s with
        loads := s.loads ++
          [{ number := q.load, tag := q.tag, arm := q.arm, recipe := q.recipe, rev := r.rev
             preset := q.preset, amends := 0, state := .authorized, phase := .body, admitFrom := none
             bt := baseTarget q.preset r.r, et := ethTarget q.preset r.r
             adds := r.adds.map fun x =>
               { id := x.id, dose := x.dose, tol := x.tol
                 inj := (d.injectors.find? fun j => (s.injector j).addId == x.id).getD 0
                 due := 0, fired := 0, proven := 0, missed := 0, consec := 0, verdict := none }
             base := { pulses := 0, gross := 0, net := 0, carry := 0, temp := 150, closed := 0 }
             eth := { pulses := 0, gross := 0, net := 0, carry := 0, temp := 150, closed := 0 }
             v := 0, va := 0, ea := 0, db := bodyEnd q.preset r.flush d.a
             rb := bodyShare (ethTarget q.preset r.r) 0 (bodyEnd q.preset r.flush d.a) 0
             share := 0, dev := 0, alarms := 0, peak := 0, vc := 0, holds := [], holdDetails := []
             resumes := 0, notices := [], stop1 := none, stop2 := none, escalated := false
             flushInc := false, rstLeft := 0, step := 1, pendingOut := none, mca := s.metrology
             mce := 0, outcome := none, frac := none, ethVerdict := none, overrun := none }]
        recipes := updFirst (fun x => x.code == q.recipe) (fun x => { x with refs := x.refs + 1 }) s.recipes }
      (.ok [field "LOAD" (numText q.load), field "STATE" "AUTHORIZED".toList,
        field "POS" (numText ((s.armQueue q.arm).length + 1))]))

/-- R17, checks 3 to 13: the first check that fails decides the refusal of an AUTHORIZE whose form and ranges
are right. -/
def Obligations.AuthorizeRefusalsInOrder : Prop :=
  ∀ (f : List Chars) (q : AuthorizeArgs) (code : Code) (s : State), s.ready → parseAuthorize f = .ok q →
    (match (s.arm q.arm).defn with
     | none => code = .notCommissioned
     | some d =>
       if (s.arm q.arm).locked then code = .armLocked
       else if (s.lane d.lane).shut then code = .laneShut
       else match s.recipe q.recipe with
         | none => code = .noSuchRecipe
         | some r =>
           if r.retiring then code = .recipeRetiring
           else if 0 < r.r ∧ d.ethMeter = none then code = .noEthanolMeter
           else if ∃ x ∈ r.adds, ∀ j ∈ d.injectors, (s.injector j).addId ≠ x.id then code = .noInjector
           else if q.preset < r.flush + d.a + d.w then code = .range
           else if d.sMax < bodyShare (ethTarget q.preset r.r) 0 (bodyEnd q.preset r.flush d.a) 0 then
             code = .unreachable
           else if ∃ l ∈ s.loads, l.number = q.load then code = .duplicate
           else if 32 ≤ s.loads.length then code = .tableFull
           else 3 ≤ (s.armQueue q.arm).length ∧ code = .queueFull) →
    exec (.authorize f) s = .next (s.answered s (.no code))

/-- R20, R21, R100: an accepted AMEND draws the ethanol line anew for the new preset, before flow from (0, 0)
and in the body from the volumes delivered, and raises the amend count; nothing else changes. In FLUSH, ENDING,
SETTLING and ENDED it is refused with TOO_LATE (R19(d)). -/
def Obligations.AmendRedrawsTheLine : Prop :=
  ∀ (f : List Chars) (q : AmendArgs) (l : Load) (s : State), s.ready → parseAmend f = .ok q →
    s.load q.load = some l →
    let d := s.defn l.arm
    let r := s.recipeOf l
    let et := ethTarget q.preset r.r
    let db := bodyEnd q.preset r.flush d.a
    let after (va ea : Nat) : State := s.answered
      { s with
        loads := updFirst (fun x => x.number == q.load) (fun x =>
          { x with
            preset := q.preset, bt := baseTarget q.preset r.r, et := et, va := va, ea := ea, db := db
            rb := bodyShare et ea db va, amends := min 255 (x.amends + 1) }) s.loads }
      (.ok [field "LOAD" (numText q.load), field "PRESET" (numText q.preset),
        field "AMENDS" (numText (min 255 (l.amends + 1)))])
    ((l.state = .authorized ∨ (l.state = .admitting ∧ l.admitFrom = some .start)) →
      r.flush + d.a + d.w ≤ q.preset → bodyShare et 0 db 0 ≤ d.sMax →
      exec (.amend f) s = .next (after 0 0)) ∧
    (((l.state = .admitting ∧ l.admitFrom = some .resume) ∨
        ((l.state = .flowing ∨ l.state = .held) ∧ l.phase = .body)) →
      ((d.w * 1000 : Nat) : Int) ≤ (q.preset : Int) * 1000 - (max r.flush d.a : Nat) * 1000 - l.v →
      l.eth.gross ≤ et → bodyShare et l.eth.gross db l.v ≤ d.sMax →
      exec (.amend f) s = .next (after l.v l.eth.gross)) ∧
    ((((l.state = .flowing ∨ l.state = .held) ∧ l.phase = .flush) ∨ l.state = .ending ∨
        l.state = .settling ∨ l.state = .ended) →
      exec (.amend f) s = .next (s.answered s (.no .tooLate)))

/-- R26(c), R39, R47: CANCEL removes an AUTHORIZED record and lowers its recipe's reference count; a RETIRING
recipe whose count falls to 0 leaves the table and sets RECIPE_REMOVED. R28: RETIRE_LOAD removes an ENDED record
and answers with the number left. In any other state either is refused with WRONG_STATE. Nothing else
changes. -/
def Obligations.RecordsLeaveTheTable : Prop :=
  ∀ (f : List Chars) (n : Nat) (l : Load) (s : State), s.ready → parseLoad f = .ok n → s.load n = some l →
    let rest := dropFirst (fun x => x.number == n) s.loads
    let answer := Response.ok [field "LOAD" (numText n)]
    (∀ r, l.state = .authorized → s.recipe l.recipe = some r → r.retiring = true → r.refs = 1 →
      exec (.cancel f) s = .next (s.answered
        { s with
          loads := rest
          recipes := dropFirst (fun x => x.code == l.recipe) s.recipes
          attention := { s.attention with pending := s.attention.pending.set 5 true } } answer)) ∧
    (∀ r, l.state = .authorized → s.recipe l.recipe = some r → r.retiring = false ∨ 2 ≤ r.refs →
      exec (.cancel f) s = .next (s.answered
        { s with
          loads := rest
          recipes := updFirst (fun x => x.code == l.recipe) (fun x => { x with refs := x.refs - 1 })
            s.recipes } answer)) ∧
    (l.state ≠ .authorized → exec (.cancel f) s = .next (s.answered s (.no .wrongState))) ∧
    (l.state = .ended → exec (.retireLoad f) s = .next (s.answered
      { s with loads := rest }
      (.ok [field "LOAD" (numText n), field "COUNT" (numText (s.loads.length - 1))]))) ∧
    (l.state ≠ .ended → exec (.retireLoad f) s = .next (s.answered s (.no .wrongState)))

/-- What holds where a HOLD with cause `c` and detail `det` has been taken on the FLOWING head load `l` of an
arm (R9, R188, R189): HELD with its phase and volume kept, the cause in the hold set and in the first stop
record that is absent, no share, both valve commands 0, the arm out of the header, LOAD_HELD set. -/
def Sys2Proof.heldBy (c : Cause) (det : Detail) (a : ArmId) (l : Load) (t : State) : Prop :=
  (∃ m, t.head a = some m ∧ m.number = l.number ∧ m.state = .held ∧ m.phase = l.phase ∧ m.v = l.v ∧
    m.base = l.base ∧ m.eth = l.eth ∧ c ∈ m.holds ∧ m.share = 0 ∧
    (l.stop1 = none → m.stop1 = some { code := .cause c, cls := .hold, detail := det, state := .flowing,
                                       phase := some l.phase, v := l.v }) ∧
    (l.stop1 ≠ none → m.stop1 = l.stop1)) ∧
  (t.arm a).valveBase = 0 ∧ (t.arm a).valveEth = 0 ∧ (t.arm a).flow.qDem = 0 ∧
  t.participates a = false ∧ t.waits a = false ∧ t.attention.pending[Source.loadHeld.index] = true

/-- What an event at an arm leaves alone: settings, lanes, recipes, the link's settings, the records behind the
arm's head load, and every other arm with its records unless that arm shares the header or waits for it. -/
def Sys2Proof.apartFrom (a : ArmId) (s t : State) : Prop :=
  t.lanes = s.lanes ∧ t.recipes = s.recipes ∧ t.meters = s.meters ∧ t.causes = s.causes ∧
  t.metrology = s.metrology ∧ t.calibration = s.calibration ∧ t.powered = s.powered ∧
  t.link.timeout = s.link.timeout ∧ t.link.switches = s.link.switches ∧
  t.attention.enabled = s.attention.enabled ∧ t.attention.master = s.attention.master ∧
  t.header.settings = s.header.settings ∧ (∀ j, (t.injector j).settings = (s.injector j).settings) ∧
  (t.arm a).defn = (s.arm a).defn ∧ (t.arm a).locked = (s.arm a).locked ∧
  (t.armQueue a).drop 1 = (s.armQueue a).drop 1 ∧
  ∀ b, b ≠ a → s.participates b = false → s.waits b = false →
    t.arm b = s.arm b ∧ t.loads.filter (fun x => x.arm == b) = s.loads.filter fun x => x.arm == b

/-- Whether a HOLD of the FLOWING load is taken as a HOLD and not escalated (R187). -/
def Sys2Proof.notEscalated (d : ArmDef) (l : Load) : Prop := d.resLimit = 0 ∨ l.resumes < d.resLimit

/-- R6, R9, R23, R137: a STOP press, a HOLD request and a no-flow expiry each take a FLOWING load to HELD. -/
def Obligations.HoldStopsAFlowingLoad : Prop :=
  ∀ (a : ArmId) (l : Load) (s : State), s.powered = true → s.head a = some l → l.state = .flowing →
    notEscalated (s.defn a) l → s.waits a = false →
    (s.causes[Cause.driverStop.index] = .hold →
      ∃ t, exec (.stopPress a) s = .next t ∧ heldBy .driverStop .none a l t ∧ apartFrom a s t) ∧
    (∀ (f : List Chars) (n : Nat), s.link.sending = none → parseLoad f = .ok n → s.load n = some l →
      s.causes[Cause.hostHold.index] = .hold →
      ∃ t, exec (.hold f) s = .next t ∧ heldBy .hostHold .none a l t ∧ apartFrom a s t ∧
        t.link.sending = some { address := s.link.address
                                response := .ok [field "LOAD" (numText n), field "STATE" "HELD".toList] }) ∧
    (∀ (r : Role) (m : MeterId), ((s.arm a).flow.noFlow r).isSome = true →
      (s.defn a).meterOf r = some m → s.causes[Cause.noFlow.index] = .hold →
      ∃ t, exec (.noFlowTimerExpiry a r) s = .next t ∧ heldBy .noFlow (.meter m) a l t ∧
        apartFrom a s t ∧ (t.arm a).flow.noFlow r = none)

/-- Table 9.1, R9, R8(b), R23: a STOP press returns a load in ADMITTING from START to AUTHORIZED, holds one in ADMITTING
from RESUME, and takes one in ENDING to SETTLING with the outcome SHORT, its flush incomplete where it holds
ethanol; a HOLD request on a HELD load adds HOST_HOLD to its hold set and changes nothing else. -/
def Obligations.HoldActsByTheLoadState : Prop :=
  ∀ (a : ArmId) (l : Load) (s : State), s.powered = true → s.head a = some l → s.participates a = false →
    l.stop1 = none → s.causes[Cause.driverStop.index] = .hold →
    let record : StopRecord := { code := .cause .driverStop, cls := .hold, detail := .none, state := l.state
                                 phase := none, v := l.v }
    (l.state = .admitting → l.admitFrom = some .start →
      ∃ t, exec (.stopPress a) s = .next t ∧ apartFrom a s t ∧ t.waits a = false ∧
        (t.arm a).valveBase = 0 ∧ (t.arm a).valveEth = 0 ∧ t.head a = some { l with
          state := .authorized, admitFrom := none, share := 0, stop1 := some record }) ∧
    (l.state = .admitting → l.admitFrom = some .resume →
      ∃ t, exec (.stopPress a) s = .next t ∧ apartFrom a s t ∧ t.waits a = false ∧
        t.attention.pending[Source.loadHeld.index] = true ∧ t.head a = some { l with
          state := .held, admitFrom := none, share := 0, stop1 := some record
          holds := insertCause .driverStop l.holds }) ∧
    (l.state = .ending → s.waits a = false →
      ∃ t m, exec (.stopPress a) s = .next t ∧ apartFrom a s t ∧ t.head a = some m ∧
        m.number = l.number ∧ m.state = .settling ∧ m.pendingOut = some .short ∧ m.stop1 = some record ∧
        m.flushInc = (l.flushInc || decide (0 < l.eth.gross)) ∧ m.v = l.v ∧
        (t.arm a).valveBase = 0 ∧ (t.arm a).valveEth = 0 ∧ (t.arm a).endStage = .awaitingFinal ∧
        (t.arm a).flow.settleTimer = some (s.defn a).settle) ∧
    ∀ (f : List Chars) (n : Nat), s.link.sending = none → parseLoad f = .ok n → s.load n = some l →
      l.state = .held → s.causes[Cause.hostHold.index] = .hold → exec (.hold f) s = .next (s.answered
        { s with
          loads := updFirst (fun x => x.number == n) (fun x =>
            { x with
              holds := insertCause .hostHold l.holds
              stop1 := some { code := .cause .hostHold, cls := .hold, detail := .none, state := .held
                              phase := some l.phase, v := l.v } }) s.loads }
        (.ok [field "LOAD" (numText n), field "STATE" "HELD".toList]))

/-- R5, R6(b): a STOP press is ignored with the head load in AUTHORIZED, HELD or SETTLING, a START press with it in
ADMITTING, FLOWING, ENDING or SETTLING, and with an AUTHORIZED one unless the permissive is satisfied, the arm
not LOCKED and its lane NORMAL; both are ignored with no head load. -/
def Obligations.PressesCanBeIgnored : Prop :=
  ∀ (a : ArmId) (s : State), s.powered = true →
    ((∀ l, s.head a = some l → l.state = .authorized ∨ l.state = .held ∨ l.state = .settling) →
      exec (.stopPress a) s = .next s) ∧
    ((∀ l, s.head a = some l → l.state ≠ .held ∧
        (l.state = .authorized → (s.arm a).permissive ≠ some true ∨ (s.arm a).locked = true ∨
          ∃ n, s.laneOf a = some n ∧ (s.lane n).shut = true)) →
      exec (.startPress a) s = .next s)

/-- R10, R25, R134, R187: an END of a FLOWING load with a flush to deliver, and a HOLD of one whose resume limit
is reached, bring ENDING at base only: no share, no ethanol, the flush quantity fixed. -/
def Obligations.EndBringsTheFlush : Prop :=
  ∀ (a : ArmId) (l : Load) (s : State), s.powered = true → s.head a = some l → l.state = .flowing →
    s.waits a = false →
    let qty := min (((s.recipeOf l).flush : Int) * 1000) (((l.preset : Int) - (s.defn a).a) * 1000 - l.v)
    0 < qty →
    let ending (cls : Bool) (t : State) : Prop :=
      (∃ m, t.head a = some m ∧ m.number = l.number ∧ m.state = .ending ∧ m.v = l.v ∧ m.share = 0 ∧
        m.pendingOut = l.pendingOut ∧ m.escalated = (l.escalated || cls)) ∧
      (t.arm a).flow.flushQty = qty ∧ (t.arm a).flow.flushStart = l.base.gross ∧
      (t.arm a).flow.qEth = 0 ∧ (t.arm a).valveEth = 0 ∧
      (t.arm a).flow.qBase = min (s.arm a).flow.qDem (s.defn a).qMax ∧
      t.participates a = false ∧ t.waits a = false ∧ apartFrom a s t
    (∀ (f : List Chars) (n : Nat), s.link.sending = none → parseLoad f = .ok n → s.load n = some l →
      ∃ t, exec (.endLoad f) s = .next t ∧ ending false t) ∧
    (s.causes[Cause.driverStop.index] = .hold → 0 < (s.defn a).resLimit →
      (s.defn a).resLimit ≤ l.resumes → ∃ t, exec (.stopPress a) s = .next t ∧ ending true t)

/-- R5, R24, R191: a resume whose test passes empties the hold set, raises the resume count, sets the restart
volume left and the consecutive misses, and moves the load to FLOWING in its phase where that is FLUSH or the
recipe has no ethanol, else to ADMITTING from RESUME behind the arms that wait. R190, R191: where the arm is LOCKED, its
lane SHUT, its permissive not satisfied, or a condition of the hold set stands for a detail taken, the press is ignored
and the request refused with STILL_HELD. That the details count from the authorization where there has been no resume is
the model's reading (log entry 32). -/
def Obligations.ResumeMovesTheLoadOn : Prop :=
  ∀ (a : ArmId) (l : Load) (s : State), s.powered = true → s.head a = some l → l.state = .held →
    let passes : Prop := (s.arm a).locked = false ∧ (∀ n, s.laneOf a = some n → (s.lane n).shut = false) ∧
      (s.arm a).permissive = some true ∧ ∀ x ∈ l.holdDetails, x.1 ∈ l.holds → s.conditionStands a x = false
    let resumed (t : State) : Prop :=
      (∃ m, t.head a = some m ∧ m.number = l.number ∧ m.phase = l.phase ∧ m.v = l.v ∧ m.holds = [] ∧
        m.resumes = min 15 (l.resumes + 1) ∧ m.rstLeft = (s.defn a).rstVol ∧
        (∀ e ∈ m.adds, e.consec = 0) ∧
        ((l.phase = .flush ∨ (s.recipeOf l).r = 0) → m.state = .flowing) ∧
        (l.phase = .body → 0 < (s.recipeOf l).r → s.header.queue ≠ [] →
          m.state = .admitting ∧ m.admitFrom = some .resume ∧ t.header.queue = s.header.queue ++ [a] ∧
          t.attention.pending[Source.admissionWait.index] = true)) ∧
      (t.arm a).flow.resumeVol = l.v ∧ apartFrom a s t
    (passes → s.participates a = false → s.waits a = false →
      (∃ t, exec (.startPress a) s = .next t ∧ resumed t) ∧
      ∀ (f : List Chars) (n : Nat), s.link.sending = none → parseLoad f = .ok n → s.load n = some l →
        ∃ t, exec (.resume f) s = .next t ∧ resumed t) ∧
    (¬ passes → exec (.startPress a) s = .next s ∧
      ∀ (f : List Chars) (n : Nat), s.link.sending = none → parseLoad f = .ok n → s.load n = some l →
        exec (.resume f) s = .next (s.answered s (.no .stillHeld)))

/-- R5(a), R66, R123, R154: a START press taken on an AUTHORIZED head load sets the stray volume to 0 and begins a
fresh flow state; the load enters FLOWING in BODY where the recipe has no ethanol, else ADMITTING from START
behind the arms that wait. -/
def Obligations.StartPressStartsTheLoad : Prop :=
  ∀ (a : ArmId) (l : Load) (s : State), s.powered = true → s.head a = some l → l.state = .authorized →
    (s.arm a).permissive = some true → (s.arm a).locked = false →
    (∀ n, s.laneOf a = some n → (s.lane n).shut = false) →
    (∀ m, (s.meter m).probe ≠ .fault) → (∀ j, (s.injector j).supplyLow = false) →
    s.participates a = false → s.waits a = false →
    ∃ t, exec (.startPress a) s = .next t ∧ apartFrom a s t ∧
      (t.arm a).strayBase = 0 ∧ (t.arm a).strayEth = 0 ∧ (t.arm a).strayVol = 0 ∧
      (t.arm a).leakWatch = .armed ∧ (t.arm a).flow.resumeVol = 0 ∧ (t.arm a).endStage = .none ∧
      ∃ m, t.head a = some m ∧ m.number = l.number ∧ m.v = l.v ∧ m.base = l.base ∧ m.eth = l.eth ∧
        ((s.recipeOf l).r = 0 → m.state = .flowing ∧ m.phase = .body ∧ (t.arm a).flow.started = true) ∧
        (0 < (s.recipeOf l).r → s.header.queue ≠ [] →
          m.state = .admitting ∧ m.admitFrom = some .start ∧ t.header.queue = s.header.queue ++ [a] ∧
          (t.arm a).flow = FlowState.fresh ∧
          t.attention.pending[Source.admissionWait.index] = true)

/-- R14, R15, R118, R119: the settling head load enters ENDED once both reports stand, with its outcome,
verdicts, overrun and the metrology count; LOAD_ENDED is set. -/
def Obligations.SettledLoadEnters : Prop :=
  ∀ (a : ArmId) (l : Load) (s : State), s.powered = true → s.head a = some l → l.state = .settling →
    (s.arm a).flow.settleComplete = true → (s.arm a).endReported = true →
    let r := s.recipeOf l
    ∃ t, exec (.loadEntersEnded a) s = .next t ∧
      t.loads = updFirst (fun x => x.arm == a && x.state != .ended) (fun x =>
        { x with
          state := .ended, admitFrom := none, pendingOut := none
          outcome := some (match l.pendingOut with
            | none => .complete
            | some .short => .short
            | some .tripped => .tripped)
          frac := some (ethFraction l.eth.net l.base.net)
          ethVerdict := some (ethVerdictOf l.eth.net l.base.net r.r r.tol)
          overrun := some (s.arm a).flow.overrun
          adds := l.adds.map fun e =>
            { e with verdict := some (addVerdictOf l.vc e.dose e.tol e.proven (s.injector e.inj).stroke) }
          mce := s.metrology }) s.loads ∧
      t.attention.pending[Source.loadEnded.index] = true ∧ (t.arm a).endStage = .none ∧
      (∀ b, b ≠ a → t.arm b = s.arm b) ∧ t.lanes = s.lanes ∧ t.meters = s.meters ∧
      t.injectors = s.injectors ∧ t.header = s.header ∧ t.causes = s.causes ∧ t.link = s.link

/-! ### Recipes (chapter 2) -/

/-- R36 to R38: a STORE_RECIPE of a new code places the recipe at revision 0 by its code; of a present one that is
ACTIVE and unused it replaces the record whole at the next revision, the code's place kept. -/
def Obligations.StoreRecipeWritesTheTable : Prop :=
  ∀ (f : List Chars) (x : Recipe) (s : State), s.ready → parseStore f = .ok x →
    x.rev = 0 ∧ x.refs = 0 ∧ x.retiring = false ∧
    (s.recipe x.code = none → s.recipes.length < 32 → exec (.storeRecipe f) s = .next (s.answered
      { s with recipes := insertRecipe x s.recipes }
      (.ok [field "CODE" (numText x.code), field "REV" (numText x.rev),
        field "COUNT" (numText (s.recipes.length + 1))]))) ∧
    (∀ r, s.recipe x.code = some r → r.retiring = false → r.refs = 0 →
      exec (.storeRecipe f) s = .next (s.answered
        { s with
          recipes := updFirst (fun y => y.code == x.code)
            (fun _ => { x with rev := (r.rev + 1) % 65536 }) s.recipes }
        (.ok [field "CODE" (numText x.code),
          field "REV" (numText ((r.rev + 1) % 65536)),
          field "COUNT" (numText s.recipes.length)])))

/-- R44: RETIRE_RECIPE removes an unused ACTIVE recipe at once, marks one in use RETIRING, and leaves a RETIRING
one as it is. -/
def Obligations.RetireRecipeWithdraws : Prop :=
  ∀ (f : List Chars) (c : Nat) (r : Recipe) (s : State), s.ready → parseCode f = .ok c →
    s.recipe c = some r →
    (r.retiring = false → r.refs = 0 → (s.recipes.map (·.code)).Nodup →
      exec (.retireRecipe f) s = .next (s.answered
        { s with recipes := dropFirst (fun x => x.code == c) s.recipes }
        (.ok [field "CODE" (numText c), field "STATE" "REMOVED".toList,
          field "COUNT" (numText (s.recipes.length - 1))]))) ∧
    (r.retiring = false → 0 < r.refs → exec (.retireRecipe f) s = .next (s.answered
      { s with recipes := updFirst (fun x => x.code == c) (fun x => { x with retiring := true }) s.recipes }
      (.ok [field "CODE" (numText c), field "STATE" "RETIRING".toList,
        field "REFS" (numText r.refs)]))) ∧
    (r.retiring = true → exec (.retireRecipe f) s = .next (s.answered s
      (.ok [field "CODE" (numText c), field "STATE" "RETIRING".toList, field "REFS" (numText r.refs)])))

/-! ### Arms and lanes (chapter 3) -/

/-- R54, R55: an accepted SET_ARM writes the arm's definition anew, sets its stray volume to 0, re-arms its leak
watch, derives its permissive and empties its latched set; its lock and valve commands stand, and nothing else
changes. -/
def Obligations.SetArmCommissions : Prop :=
  ∀ (f : List Chars) (q : ArmArgs) (s : State), s.ready → parseSetArm f = .ok q →
    (∀ n, s.laneOf q.arm = some n → (s.lane n).shut = false) → (s.lane q.defn.lane).shut = false →
    s.armQueue q.arm = [] → q.defn.ethMeter ≠ some q.defn.baseMeter →
    (∀ b e, b ≠ q.arm → (s.arm b).defn = some e →
      (∀ m, (q.defn.baseMeter = m ∨ q.defn.ethMeter = some m) → e.baseMeter ≠ m ∧ e.ethMeter ≠ some m) ∧
      ∀ j ∈ q.defn.injectors, j ∉ e.injectors) →
    let x := s.arm q.arm
    exec (.setArm f) s = .next (s.answered
      { s with
        arms := s.arms.set q.arm
          { x with
            defn := some q.defn, strayBase := 0, strayEth := 0, strayVol := 0, leakWatch := .armed
            latched := [], permissive := some (permissiveSatisfied q.defn x.levels) } }
      (.ok [field "ARM" (armText q.arm), field "LANE" (laneText q.defn.lane),
        field "COMM" "YES".toList]))

/-- R57: an accepted DECOMMISSION_ARM withdraws the definition; the arm holds both valve commands at 0 (R51), has no
permissive flag, and keeps its lock. Nothing else changes. -/
def Obligations.DecommissionWithdraws : Prop :=
  ∀ (f : List Chars) (a : ArmId) (s : State), s.ready → parseArm f = .ok a →
    ((s.arm a).defn = none → exec (.decommissionArm f) s = .next (s.answered s (.no .notCommissioned))) ∧
    ((s.arm a).defn.isSome = true → s.armQueue a ≠ [] →
      exec (.decommissionArm f) s = .next (s.answered s (.no .inUse))) ∧
    ((s.arm a).defn.isSome = true → s.armQueue a = [] →
      exec (.decommissionArm f) s = .next (s.answered
        { s with
          arms := s.arms.set a
            { s.arm a with
              defn := none, strayBase := 0, strayEth := 0, strayVol := 0, leakWatch := .armed
              latched := [], permissive := none, valveBase := 0, valveEth := 0 } }
        (.ok [field "ARM" (armText a), field "COMM" "NO".toList])))

/-- R62: an accepted RESET_ARM clears the lock, the stray volume and the leak watch of the arm and changes nothing
else; in a SHUT lane and with a settling head load it is refused. -/
def Obligations.ResetArmClearsTheLock : Prop :=
  ∀ (f : List Chars) (a : ArmId) (s : State), s.ready → parseArm f = .ok a →
    ((∃ n, s.laneOf a = some n ∧ (s.lane n).shut = true) →
      exec (.resetArm f) s = .next (s.answered s (.no .laneShut))) ∧
    ((∀ n, s.laneOf a = some n → (s.lane n).shut = false) → s.headIs a (· == .settling) = true →
      exec (.resetArm f) s = .next (s.answered s (.no .wrongState))) ∧
    ((∀ n, s.laneOf a = some n → (s.lane n).shut = false) → s.headIs a (· == .settling) = false →
      exec (.resetArm f) s = .next (s.answered
        { s with
          arms := s.arms.set a
            { s.arm a with
              locked := false, lockRecord := none, strayBase := 0, strayEth := 0, strayVol := 0
              leakWatch := .armed } }
        (.ok [field "ARM" (armText a),
          field "COND" (if s.headIs a LoadState.inProgress then "ACTIVE".toList else "IDLE".toList)])))

/-- R63: an accepted RESET_LANE makes the lane NORMAL and clears the lock, the stray volume and the leak watch of
every arm of it; other arms and lanes stand. -/
def Obligations.ResetLaneReturnsToService : Prop :=
  ∀ (f : List Chars) (n : LaneId) (s : State), s.ready → parseLane f = .ok n →
    ((s.lane n).emergency = true → exec (.resetLane f) s = .next (s.answered s (.no .wrongState))) ∧
    ((s.lane n).emergency = false →
      (∀ a, s.laneOf a = some n → (s.arm a).strayVol ≤ (s.defn a).leak * 1000 ∧
        s.headIs a (· == .settling) = false) →
      ∃ t, exec (.resetLane f) s = .next (s.answered t
          (.ok [field "LANE" (laneText n), field "LANESTATE" "NORMAL".toList])) ∧
        t = { s with arms := t.arms, lanes := t.lanes } ∧
        t.lane n = { s.lane n with shut := false, shutCause := none } ∧
        (∀ k, k ≠ n → t.lane k = s.lane k) ∧
        (∀ a, s.laneOf a = some n → t.arm a =
          { s.arm a with
            locked := false, lockRecord := none, strayBase := 0, strayEth := 0, strayVol := 0
            leakWatch := .armed }) ∧
        ∀ a, s.laneOf a ≠ some n → t.arm a = s.arm a)

/-! ### Meters (chapter 4 and R67 to R69) -/

/-- R67, R76: a SET_METER that changes K, MF or BETA while the calibration switch input is open is refused with
CAL_OPEN, and with the input closed while a load of the channel's arm is in progress with IN_USE. -/
def Obligations.MetrologyNeedsTheKey : Prop :=
  ∀ (f : List Chars) (q : MeterArgs) (s : State), s.ready → parseSetMeter f = .ok q →
    let m := s.meter q.meter
    ((∃ k, q.k = some k ∧ k ≠ m.k) ∨ (∃ k, q.mf = some k ∧ k ≠ m.mf) ∨ ∃ k, q.beta = some k ∧ k ≠ m.beta) →
    (s.calibration = .opened → exec (.setMeter f) s = .next (s.answered s (.no .calOpen))) ∧
    (s.calibration = .closed → ∀ a r, s.meterBinding q.meter = some (a, r) →
      s.headIs a LoadState.inProgress = true →
      exec (.setMeter f) s = .next (s.answered s (.no .inUse)))

/-- What a TRIP with cause `c` and detail `det` at an arm that is LOCKED already and has no load in progress leaves,
with its lane `n` NORMAL (R66, R173, R196): the lane SHUT with that cause, the stray volumes of its arms 0, every other
arm of it tripped and LOCKED with no stroke begun, the lock records there were kept, and no arm outside the lane locked.
-/
def Sys2Proof.laneShutBy (c : Cause) (det : Detail) (a : ArmId) (n : LaneId) (s t : State) : Prop :=
  t.lane n = { s.lane n with shut := true, shutCause := some c } ∧ (∀ k, k ≠ n → t.lane k = s.lane k) ∧
  t.attention.pending[Source.laneShut.index] = true ∧ t.attention.pending[Source.armLocked.index] = true ∧
  (t.arm a).locked = true ∧ (t.arm a).lockRecord = (s.arm a).lockRecord ∧ t.head a = s.head a ∧
  (∀ b, s.laneOf b = some n → (t.arm b).strayBase = 0 ∧ (t.arm b).strayEth = 0 ∧ (t.arm b).strayVol = 0 ∧
    (t.arm b).leakWatch = .armed) ∧
  (∀ b, b ≠ a → s.laneOf b = some n → (t.arm b).locked = true ∧
    (t.arm b).lockRecord = (if (s.arm b).locked then (s.arm b).lockRecord else some (c, det)) ∧
    t.headIs b LoadState.preSettling = false ∧
    ∀ l, s.head b = some l → l.state.inProgress = true →
      ∃ m, t.head b = some m ∧ m.number = l.number ∧ m.state = .settling ∧ m.pendingOut = some .tripped ∧
        m.adds = l.adds) ∧
  ∀ b, s.laneOf b ≠ some n → (t.arm b).locked = (s.arm b).locked ∧ (t.arm b).lockRecord = (s.arm b).lockRecord

/-- R68, R69, R77, R90: an accepted SET_METER writes the settings it carries; a history whose depth changes is emptied, a
changed factor sets the flow residue to 0, and a metrological change raises the metrology count by 1, saturating. A change
that is not metrological is accepted with the calibration switch open and a load in progress. Nothing else changes, but
that a changed factor of a bound channel works out anew the gross and V of the arm's AUTHORIZED records that hold pulses
and the arm's stray volume; above the leak allowance with the watch ARMED that raises LEAK_BY, which locks the arm, or
shuts the lane of an arm that is LOCKED. That every AUTHORIZED record is worked out anew without a net close is the
model's reading (log entry 25). -/
def Obligations.SetMeterWritesTheChannel : Prop :=
  ∀ (f : List Chars) (q : MeterArgs) (s : State), s.ready → parseSetMeter f = .ok q →
    let m := s.meter q.meter
    let factor := (q.k.getD m.k != m.k) || (q.mf.getD m.mf != m.mf)
    let metro := factor || (q.beta.getD m.beta != m.beta)
    let count := if metro then min 65535 (s.metrology + 1) else s.metrology
    let written : Meter :=
      { m with
        k := q.k.getD m.k, mf := q.mf.getD m.mf, beta := q.beta.getD m.beta
        tDepth := q.tDepth.getD m.tDepth, qDepth := q.qDepth.getD m.qDepth
        tHist := if q.tDepth.getD m.tDepth = m.tDepth then m.tHist else []
        qHist := if q.qDepth.getD m.qDepth = m.qDepth then m.qHist else []
        residue := if factor then 0 else m.residue }
    let answer := Response.ok [field "CHANNEL" (meterText q.meter),
      field "METRO" (if metro then "YES".toList else "NO".toList), field "COUNT" (numText count)]
    let settled : State := { s with metrology := count, meters := s.meters.set q.meter written }
    metro = false ∨ (s.calibration = .closed ∧
      ∀ a r, s.meterBinding q.meter = some (a, r) → s.headIs a LoadState.inProgress = false) →
    (factor = false ∨ s.meterBinding q.meter = none →
      exec (.setMeter f) s = .next (s.answered settled answer)) ∧
    ∀ a r, factor = true → s.meterBinding q.meter = some (a, r) →
      let x := s.arm a
      let d := s.defn a
      let volume (i : MeterId) (pulses : Nat) : Nat := pulses * 100 * (settled.meter i).mf / (settled.meter i).k
      let stray := min 4294967295 (volume d.baseMeter x.strayBase +
        match d.ethMeter with
        | none => 0
        | some e => volume e x.strayEth)
      let regrossed (l : Load) : Load :=
        if l.arm = a ∧ l.state = .authorized ∧ (l.account r).pulses ≠ 0 then
          let gross := min 4294967295 (volume q.meter (l.account r).pulses)
          match r with
          | .base => { l with base := { l.base with gross := gross }, v := min 4294967295 (gross + l.eth.gross) }
          | .ethanol => { l with eth := { l.eth with gross := gross }, v := min 4294967295 (l.base.gross + gross) }
        else l
      let after (y : Arm) : State := { settled with loads := s.loads.map regrossed, arms := s.arms.set a y }
      let y : Arm := { x with strayVol := stray }
      (stray ≤ d.leak * 1000 ∨ x.leakWatch = .raised →
        exec (.setMeter f) s = .next (s.answered (after y) answer)) ∧
      (d.leak * 1000 < stray → x.leakWatch = .armed → s.causes[Cause.leakBy.index] = .trip →
        (x.locked = false → exec (.setMeter f) s = .next (s.answered (State.attend .armLocked (after
          { y with leakWatch := .raised, locked := true, lockRecord := some (.leakBy, .meter q.meter) })) answer)) ∧
        (x.locked = true → (s.lane d.lane).shut = true →
          exec (.setMeter f) s = .next (s.answered
            (State.attend .armLocked (after { y with leakWatch := .raised })) answer)) ∧
        (x.locked = true → (s.lane d.lane).shut = false → s.headerOk →
          ∃ t, exec (.setMeter f) s = .next (s.answered t answer) ∧ t.meters = settled.meters ∧
            t.metrology = count ∧ laneShutBy .leakBy (.meter q.meter) a d.lane (after y) t))

/-- R64, R65, R79(a), R79(b): a pulse raises the channel's flow window. On an unbound channel nothing else changes. On a
bound one whose arm has no load in progress it raises the stray count, and the stray volume is worked out anew;
while that stays within the leak allowance nothing else changes. -/
def Obligations.PulseWithoutALoadIsStray : Prop :=
  ∀ (m : MeterId) (s : State), s.powered = true →
    let windowed : State := { s with
      meters := s.meters.set m
        { s.meter m with window := min 4294967295 ((s.meter m).window + 1) } }
    (s.meterBinding m = none → exec (.meterPulse m) s = .next windowed) ∧
    (∀ a, s.meterBinding m = some (a, .base) → s.headIs a LoadState.inProgress = false →
      ∀ vol, vol = min 4294967295
        (min 4294967295 ((s.arm a).strayBase + 1) * 100 * (s.meter m).mf / (s.meter m).k +
          match (s.defn a).ethMeter with
          | none => 0
          | some e => (s.arm a).strayEth * 100 * (s.meter e).mf / (s.meter e).k) →
      vol ≤ (s.defn a).leak * 1000 →
      exec (.meterPulse m) s = .next { windowed with
        arms := s.arms.set a
          { s.arm a with strayBase := min 4294967295 ((s.arm a).strayBase + 1), strayVol := vol } })

/-- R64, R65, R194, R196: a stray pulse that takes the stray volume above the leak allowance with the watch ARMED locks an
arm not LOCKED, with LEAK_BY and the meter in its lock record; the watch becomes RAISED and ARM_LOCKED is set. An arm
LOCKED already keeps its lock record: its lane, if NORMAL, becomes SHUT with LEAK_BY and every other arm of it is tripped,
and a lane SHUT already stands with its arms. Within the allowance, and with the watch RAISED, nothing is raised. -/
def Obligations.LeakLocksTheArm : Prop :=
  ∀ (m : MeterId) (a : ArmId) (r : Role) (s : State), s.powered = true → s.meterBinding m = some (a, r) →
    s.headIs a LoadState.inProgress = false → s.causes[Cause.leakBy.index] = .trip →
    let x := s.arm a
    let d := s.defn a
    let volume (i : MeterId) (pulses : Nat) : Nat := pulses * 100 * (s.meter i).mf / (s.meter i).k
    let base := if r = .base then min 4294967295 (x.strayBase + 1) else x.strayBase
    let eth := if r = .ethanol then min 4294967295 (x.strayEth + 1) else x.strayEth
    let stray := min 4294967295 (volume d.baseMeter base +
      match d.ethMeter with
      | none => 0
      | some e => volume e eth)
    let pulsed : Arm := { x with strayBase := base, strayEth := eth, strayVol := stray }
    ∃ t, exec (.meterPulse m) s = .next t ∧
      (stray ≤ d.leak * 1000 ∨ x.leakWatch = .raised → t.arm a = pulsed ∧ t.attention = s.attention) ∧
      (d.leak * 1000 < stray → x.leakWatch = .armed → x.locked = false → t.arm a =
          { pulsed with leakWatch := .raised, locked := true, lockRecord := some (.leakBy, .meter m) } ∧
        t.attention.pending[Source.armLocked.index] = true) ∧
      (d.leak * 1000 < stray → x.leakWatch = .armed → x.locked = true → (s.lane d.lane).shut = true →
        t.arm a = { pulsed with leakWatch := .raised } ∧ t.attention.pending[Source.armLocked.index] = true) ∧
      (stray ≤ d.leak * 1000 ∨ x.leakWatch = .raised ∨ x.locked = false ∨ (s.lane d.lane).shut = true →
        t.loads = s.loads ∧ t.lanes = s.lanes ∧ t.header = s.header ∧ t.injectors = s.injectors ∧
        ∀ b, b ≠ a → t.arm b = s.arm b) ∧
      (d.leak * 1000 < stray → x.leakWatch = .armed → x.locked = true → (s.lane d.lane).shut = false →
        s.headerOk → laneShutBy .leakBy (.meter m) a d.lane s t)

/-- Whether an arm is LOCKED or its lane SHUT, so that none of its injectors begins a stroke (R173). -/
def Sys2Proof.noStroke (s : State) (a : ArmId) : Bool :=
  (s.arm a).locked || (s.laneOf a).any fun n => (s.lane n).shut

/-- The account after a net close (R85): the net and the carry have grown by the gross gained since the last close at the
VCF of the meter's present average, and every pulse is closed. -/
def Sys2Proof.closedAccount (m : Meter) (c : Account) : Account :=
  let gained : Int := (c.gross : Int) - (c.closed * 100 * m.mf / m.k : Nat)
  let num : Int := gained * vcf m.beta m.tAvg + c.carry
  { c with
    net := min 4294967295 ((c.net : Int) + num / 1000000).toNat
    carry := (num % 1000000).toNat
    temp := m.tAvg
    closed := c.pulses }

/-- R79(c): a pulse on a meter of an arm whose load is FLOWING raises the pulse count of its account by 1 and works its
gross and V anew. Between boundaries nothing else of any record changes. At a boundary (R104) the close volume, both net
closes, the deviation and its peak, the profile steps (R125) and the strokes due (R165) are written. Short of the body
end (R107, R111, R112, R166, R167) the load stays FLOWING in BODY with its alarm count and share command, the lag of
each entry is judged (here ADDITIVE_LAG with its default class NOTE), each channel that owes a stroke fires (none where
the arm is LOCKED or its lane SHUT, R173), and the flow is split; a full run of alarms raises RATIO_DEVIATION, a notice
as NOTE, HELD as HOLD. At the body end (R12(b), R113) the phase becomes FLUSH, the share 0, the arm leaves the header,
and no alarm is counted. -/
def Obligations.PulseIsCreditedToTheLoad : Prop :=
  ∀ (m : MeterId) (a : ArmId) (role : Role) (l : Load) (s : State), s.powered = true →
    s.meterBinding m = some (a, role) → s.head a = some l → l.state = .flowing → l.rstLeft = 0 →
    let d := s.defn a
    let x := s.arm a
    let pulses := min 4294967295 ((l.account role).pulses + 1)
    let gross := min 4294967295 (pulses * 100 * (s.meter m).mf / (s.meter m).k)
    let v := match role with
      | .base => min 4294967295 (gross + l.eth.gross)
      | .ethanol => min 4294967295 (l.base.gross + gross)
    let credited : Load := match role with
      | .base => { l with base := { l.base with pulses := pulses, gross := gross }, v := v }
      | .ethanol => { l with eth := { l.eth with pulses := pulses, gross := gross }, v := v }
    let boundary := nextBoundary d.w l.db (closeAhead l.preset d.a) l.vc
    (v < boundary →
      ∃ t, exec (.meterPulse m) s = .next t ∧
        t.loads = updFirst (fun y => y.arm == a && y.state != .ended) (fun _ => credited) s.loads ∧
        t.header = s.header ∧ t.injectors = s.injectors ∧ t.lanes = s.lanes ∧
        (∀ b, b ≠ a → t.arm b = s.arm b) ∧ (∀ k, k ≠ m → t.meter k = s.meter k) ∧
        t.arm a = { x with flow := { x.flow with
          noFlowBase := if role = .base ∧ 0 < x.flow.qBase then some d.noFlow else x.flow.noFlowBase
          noFlowEth := if role = .ethanol ∧ 0 < x.flow.qEth then some d.noFlow else x.flow.noFlowEth } }) ∧
    (boundary ≤ v → v < closeAhead l.preset d.a → l.phase = .body → x.flow.started = true → 1 ≤ l.step →
      (l.adds.map (·.inj)).Nodup → s.causes[Cause.additiveLag.index] = .note → s.waits a = false →
      let r := s.recipeOf l
      let base := closedAccount (s.meter d.baseMeter) credited.base
      let eth := match d.ethMeter with
        | none => credited.eth
        | some e => closedAccount (s.meter e) credited.eth
      let line : Int := if v ≤ l.db then
          (l.ea : Int) + ((l.et : Int) - l.ea) * ((v : Int) - l.va) / ((l.db : Int) - l.va)
        else l.et
      let dev := line - credited.eth.gross
      let due (e : AddEntry) : Nat := v * e.dose / ((s.injector e.inj).stroke * 10000)
      let holds (p : Step) : Prop := match p.kind with
        | .del => p.vol * 1000 ≤ v
        | .rem => (l.preset : Int) * 1000 - v ≤ p.vol * 1000
      let written (k : Load) (f : FlowState) : Prop :=
        k.number = l.number ∧ k.v = v ∧ k.vc = v ∧ k.base = base ∧ k.eth = eth ∧ k.dev = dev ∧
        k.peak = max l.peak dev.natAbs ∧ k.adds.map (·.due) = l.adds.map due ∧ l.step ≤ k.step ∧
        (∀ i, l.step ≤ i → i < k.step → ∃ p, r.profile[i - 1]? = some p ∧ holds p) ∧
        (∀ p, r.profile[k.step - 1]? = some p → ¬ holds p) ∧
        (k.step = l.step → f.limit = x.flow.limit ∧ f.rate = x.flow.rate) ∧
        (l.step < k.step → ∃ p, r.profile[k.step - 2]? = some p ∧ f.limit = p.limit ∧ f.rate = p.rate)
      let demanded (k : Load) (f : FlowState) : Prop :=
        (k.step = l.step ∨ (k.step = l.step + 1 ∧ 0 < f.rate) → f.qDem = x.flow.qDem) ∧
        (l.step < k.step → f.rate = 0 → f.limit ≠ x.flow.limit → f.qDem = f.limit)
      (v < l.db →
        let outside := decide (max (d.tMin * 1000) (v * r.tol / 10000) < dev.natAbs)
        let raised := outside && decide (d.devCount ≤ l.alarms + 1)
        let raw : Int := (l.rb : Int) + (dev * 10000).tdiv (r.h * 1000)
        let share : Nat := if (d.sMax : Int) < raw then d.sMax else raw.toNat
        let late (e : AddEntry) : Bool := decide (d.lag < due e - e.proven)
        let fires (e : AddEntry) : Bool :=
          !noStroke s a && (s.injector e.inj).state == .idle && decide (e.consec < 3) &&
            decide (e.proven < due e)
        ∃ t k, exec (.meterPulse m) s = .next t ∧ t.head a = some k ∧ written k (t.arm a).flow ∧
          k.alarms = (if raised then 0 else if outside then l.alarms + 1 else 0) ∧
          k.adds = l.adds.map (fun e =>
            { e with due := due e, fired := if fires e then e.fired + 1 else e.fired }) ∧
          (raised = false ∨ s.causes[Cause.ratioDeviation.index] = .note →
            let f := (t.arm a).flow
            let pre := min f.qDem d.qMax
            k.state = .flowing ∧ k.phase = .body ∧ k.share = share ∧ demanded k f ∧
            f.q = (if share = 0 then pre else match t.grantOf a with
              | none => pre
              | some g => if g < pre * share / 10000 then min pre (g * 10000 / share) else pre) ∧
            f.qEth = f.q * share / 10000 ∧ f.qBase = f.q - f.qEth ∧
            (t.arm a).valveBase = min 4095 ((2 * (f.qBase * 4095) + d.fsBase) / (2 * d.fsBase)) ∧
            (t.arm a).valveEth = min 4095 ((2 * (f.qEth * 4095) + d.fsEth) / (2 * d.fsEth)) ∧
            (s.participates a = true → ∃ p ∈ t.header.parts, p.arm = a ∧ p.demand = pre * share / 10000) ∧
            (∀ c, c ∈ k.notices ↔ c ∈ l.notices ∨ (c = .ratioDeviation ∧ raised = true) ∨
              (c = .additiveLag ∧ ∃ e ∈ l.adds, late e = true ∧ (s.injector e.inj).lagWatch = .armed)) ∧
            (∀ e ∈ l.adds,
              let j := { s.injector e.inj with lagWatch := if late e then .raised else .armed }
              t.injector e.inj = if fires e then
                { j with
                  state := .firing, strokeLoad := some l.number, pulseTimer := some j.width
                  proofTimer := some j.proofTo }
                else j) ∧
            (∀ j, (∀ e ∈ l.adds, e.inj ≠ j) → t.injector j = s.injector j) ∧
            t.loads = updFirst (fun y => y.arm == a && y.state != .ended) (fun _ => k) s.loads ∧
            t.lanes = s.lanes ∧ t.recipes = s.recipes ∧ t.header.settings = s.header.settings ∧
            t.header.queue = s.header.queue ∧ (∀ i, i ≠ m → t.meter i = s.meter i) ∧
            ∀ b, b ≠ a → s.participates b = false → t.arm b = s.arm b) ∧
          (raised = true → s.causes[Cause.ratioDeviation.index] = .hold → notEscalated d l →
            heldBy .ratioDeviation (if 0 < dev then .shortOf else .excess) a
              { l with v := v, base := base, eth := eth } t)) ∧
      (l.db ≤ v →
        ∃ t k, exec (.meterPulse m) s = .next t ∧ t.head a = some k ∧ written k (t.arm a).flow ∧
          k.state = .flowing ∧ k.phase = .flush ∧ k.share = 0 ∧ k.alarms = l.alarms ∧
          t.participates a = false ∧ t.waits a = false ∧
          let f := (t.arm a).flow
          demanded k f ∧ f.q = min f.qDem d.qMax ∧ f.qEth = 0 ∧ f.qBase = f.q ∧ f.noFlowEth = none ∧
          (t.arm a).valveEth = 0 ∧
          (t.arm a).valveBase = min 4095 ((2 * (f.qBase * 4095) + d.fsBase) / (2 * d.fsBase))))

/-- R8, R12, R85, R104, R129, R138: the pulse that takes V to the close-ahead point moves a FLOWING load to SETTLING with
no pending outcome: share and both valve commands 0, both settle timers running, every pulse closed, and the base
account's net and carry grown by the volume gained at the VCF of its meter. -/
def Obligations.CloseAheadBeginsTheSettle : Prop :=
  ∀ (m : MeterId) (a : ArmId) (l : Load) (s : State), s.powered = true →
    s.meterBinding m = some (a, .base) → (s.defn a).baseMeter = m → s.head a = some l →
    l.state = .flowing → l.rstLeft = 0 → l.pendingOut = none → s.waits a = false →
    let pulses := min 4294967295 (l.base.pulses + 1)
    let gross := min 4294967295 (pulses * 100 * (s.meter m).mf / (s.meter m).k)
    let v := min 4294967295 (gross + l.eth.gross)
    let gained : Int := gross - (l.base.closed * 100 * (s.meter m).mf / (s.meter m).k : Nat)
    let num := gained * vcf (s.meter m).beta (s.meter m).tAvg + l.base.carry
    closeAhead l.preset (s.defn a).a ≤ v → l.vc < closeAhead l.preset (s.defn a).a →
    ∃ t, exec (.meterPulse m) s = .next t ∧
      (∃ k, t.head a = some k ∧ k.number = l.number ∧ k.state = .settling ∧ k.pendingOut = none ∧
        k.flushInc = l.flushInc ∧ k.share = 0 ∧ k.v = v ∧ k.vc = v ∧
        k.base.pulses = pulses ∧ k.base.gross = gross ∧ k.base.closed = pulses ∧
        k.base.temp = (s.meter m).tAvg ∧ k.base.carry = (num % 1000000).toNat ∧
        k.base.net = min 4294967295 ((l.base.net : Int) + num / 1000000).toNat ∧
        k.eth.closed = if (s.defn a).ethMeter.isSome then l.eth.pulses else l.eth.closed) ∧
      (t.arm a).valveBase = 0 ∧ (t.arm a).valveEth = 0 ∧
      (t.arm a).flow.settleTimer = some (s.defn a).settle ∧
      (t.arm a).flow.maxTimer = some (s.defn a).maxSettle ∧ (t.arm a).flow.settleComplete = false ∧
      t.participates a = false ∧ t.waits a = false

/-! ### Reports -/

/-- R4, R43, R147, R185, R202, R210: the requests without fields report the load table, the recipe table, the header,
the cause table, the attention flags and the module, in the order their rules give, and change no state; with
any field each is refused with FORMAT. -/
def Obligations.TablesAreReported : Prop :=
  ∀ (s : State), s.ready →
    (∀ f : List Chars, f ≠ [] → ∀ c ∈ [Instr.listLoads f, .listRecipes f, .getHeader f, .getCauses f,
      .getAttention f, .getIdent f], exec c s = .next (s.answered s (.no .format))) ∧
    exec (.listLoads []) s = .next (s.answered s (.ok
      ([field "COUNT" (numText s.loads.length)] ++ s.loads.mapIdx fun i l =>
        ("L".toList ++ numText (i + 1),
          numText l.number ++ ',' :: armText l.arm ++ ',' :: l.state.text)))) ∧
    exec (.listRecipes []) s = .next (s.answered s (.ok
      ([field "COUNT" (numText s.recipes.length)] ++ s.recipes.mapIdx fun i r =>
        ("C".toList ++ numText (i + 1),
          numText r.code ++ ',' :: numText r.rev ++ ',' ::
            (if r.retiring then "RETIRING".toList else "ACTIVE".toList) ++ ',' :: numText r.refs)))) ∧
    exec (.getHeader []) s = .next (s.answered s (.ok
      ([field "CAP" (numText s.header.cap),
        field "PRESSURE" (if s.header.pressureUsed then "USED".toList else "UNUSED".toList),
        field "INPUT" (if s.header.input = .closed then "CLOSED".toList else "OPEN".toList),
        field "STATE" (if s.header.lost then "LOST".toList else "PRESENT".toList),
        field "EFFCAP" (numText (if s.header.lost then 0 else s.header.cap)),
        field "COUNT" (numText s.header.parts.length)] ++
       (s.header.parts.mapIdx fun i p => ("P".toList ++ numText (i + 1),
         armText p.arm ++ ',' :: numText p.demand ++ ',' :: numText p.grant)) ++
       [field "SUM" (numText (s.header.parts.map (·.grant)).sum),
        field "QUEUE" (listText (s.header.queue.map armText))]))) ∧
    exec (.getCauses []) s = .next (s.answered s (.ok
      ([field "COUNT" "16".toList] ++ allCauses.mapIdx fun i c =>
        ("C".toList ++ numText (i + 1), c.text ++ ',' :: (s.causes[c.index]).text)))) ∧
    exec (.getAttention []) s = .next (s.answered s (.ok
      [field "PENDING" (listText ((allSources.filter fun x => s.attention.pending[x.index]).map Source.text)),
       field "ENABLED" (listText ((allSources.filter fun x => s.attention.enabled[x.index]).map Source.text)),
       field "MASTER" (if s.attention.master then "ON".toList else "OFF".toList),
       field "LINE" (if s.attention.master && allSources.any fun x =>
           s.attention.pending[x.index] && s.attention.enabled[x.index]
         then "ON".toList else "OFF".toList)])) ∧
    exec (.getIdent []) s = .next (s.answered s (.ok
      [field "MAKER" "ZANTOPEL".toList, field "MODEL" "AB-820".toList,
       field "ADDR" (twoDigits (s.link.switches.position.val + 1)),
       field "SPEED" (speedText s.link.switches.speed), field "MCOUNT" (numText s.metrology),
       field "CAL" (if s.calibration = .closed then "CLOSED".toList else "OPEN".toList),
       field "TIMEOUT" (numText s.link.timeout), field "LOADS" (numText s.loads.length),
       field "RECIPES" (numText s.recipes.length)]))

/-- What GET_LOAD reports of a record (R1, R27, Table 1.1), without QB and QE. -/
def Sys2Proof.loadReport (l : Load) : List Field :=
  let account (c : Account) : Chars :=
    joinWith ',' [numText c.pulses, numText c.gross, numText c.net, numText c.carry, intText c.temp]
  let entry (e : AddEntry) : Chars :=
    joinWith ',' ([numText e.id, numText e.dose, numText e.tol, injText e.inj, numText e.due, numText e.fired,
      numText e.proven, numText e.missed, numText e.consec] ++ (e.verdict.map AddVerdict.text).toList)
  let stop (r : StopRecord) : Chars :=
    joinWith ',' [r.code.text, r.cls.text, r.detail.text, r.state.text,
      (match r.phase with
        | none => ['-']
        | some p => p.text), numText r.v]
  let present (k : String) (v : Option Chars) : List Field := (v.map fun w => field k w).toList
  let answer (b : Bool) : Chars := if b then "YES".toList else "NO".toList
  [field "LOAD" (numText l.number)] ++ present "TAG" l.tag ++
  [field "ARM" (armText l.arm), field "RECIPE" (numText l.recipe), field "REV" (numText l.rev),
   field "PRESET" (numText l.preset), field "AMENDS" (numText l.amends), field "STATE" l.state.text] ++
  (if l.state = .flowing ∨ l.state = .held then [field "PHASE" l.phase.text] else []) ++
  (if l.state = .admitting then present "FROM" (l.admitFrom.map AdmitFrom.text) else []) ++
  [field "BT" (numText l.bt), field "ET" (numText l.et)] ++
  (l.adds.mapIdx fun i e => ("ADD".toList ++ numText (i + 1), entry e)) ++
  [field "BASE" (account l.base), field "ETH" (account l.eth), field "V" (numText l.v),
   field "VA" (numText l.va), field "EA" (numText l.ea), field "DB" (numText l.db), field "RB" (numText l.rb),
   field "S" (numText l.share), field "DEV" (intText l.dev), field "ALARMS" (numText l.alarms),
   field "PEAK" (numText l.peak), field "HOLDS" (listText (l.holds.map Cause.text)),
   field "RESUMES" (numText l.resumes), field "NOTICES" (listText (l.notices.map Cause.text))] ++
  present "STOP1" (l.stop1.map stop) ++ present "STOP2" (l.stop2.map stop) ++
  [field "ESC" (answer l.escalated), field "FLUSHINC" (answer l.flushInc),
   field "RSTLEFT" (numText l.rstLeft), field "STEP" (numText l.step)] ++
  (if l.state = .settling then present "PENDING" (l.pendingOut.map PendingOutcome.text) else []) ++
  [field "MCA" (numText l.mca), field "MCE" (numText l.mce)] ++
  (if l.state = .ended then
    present "OUTCOME" (l.outcome.map LoadOutcome.text) ++ present "FRAC" (l.frac.map numText) ++
    present "EVERDICT" (l.ethVerdict.map EthVerdict.text) ++ present "OVERRUN" (l.overrun.map numText)
   else [])

/-- What GET_RECIPE reports of a recipe (R42(d)). -/
def Sys2Proof.recipeReport (r : Recipe) : List Field :=
  [field "CODE" (numText r.code), field "REV" (numText r.rev),
   field "STATE" (if r.retiring then "RETIRING".toList else "ACTIVE".toList), field "REFS" (numText r.refs)] ++
  (r.name.map fun w => field "NAME" w).toList ++
  [field "R" (numText r.r), field "TOL" (numText r.tol), field "FLUSH" (numText r.flush),
   field "H" (numText r.h), field "STEPS" (numText r.profile.length)] ++
  (r.profile.mapIdx fun i p => ("STEP".toList ++ numText (i + 1),
    joinWith ',' [(match p.kind with
      | .del => "DEL".toList
      | .rem => "REM".toList), numText p.vol, numText p.limit, numText p.rate])) ++
  [field "ADDS" (numText r.adds.length)] ++
  (r.adds.mapIdx fun i e => ("ADD".toList ++ numText (i + 1),
    joinWith ',' [numText e.id, numText e.dose, numText e.tol]))

/-- What GET_ARM reports of a definition (R58, Table 3.1). -/
def Sys2Proof.armReport (d : ArmDef) : List Field :=
  [field "LANE" (laneText d.lane), field "BMETER" (meterText d.baseMeter),
   field "EMETER" (match d.ethMeter with
     | none => ['-']
     | some m => meterText m),
   field "INJ" (listText (d.injectors.map injText)), field "QMAX" (numText d.qMax),
   field "FSB" (numText d.fsBase), field "FSE" (numText d.fsEth), field "SMAX" (numText d.sMax),
   field "EMIN" (numText d.eMin), field "W" (numText d.w), field "A" (numText d.a),
   field "SETTLE" (numText d.settle), field "MAXSETTLE" (numText d.maxSettle),
   field "NOFLOW" (numText d.noFlow), field "RSTFLOW" (numText d.rstFlow), field "RSTVOL" (numText d.rstVol),
   field "LEAK" (numText d.leak), field "RESLIMIT" (numText d.resLimit), field "DEVCOUNT" (numText d.devCount),
   field "TMIN" (numText d.tMin), field "LAG" (numText d.lag), field "CATCHUP" (numText d.catchUp)] ++
  (List.finRange 8).map fun k => ("PERM".toList ++ numText k.val,
    match d.perms[k] with
    | none => ['-']
    | some u => (if u.level = .closed then "CLOSED".toList else "OPEN".toList) ++ ',' ::
        (if u.safety then "SAFETY".toList else "PLAIN".toList))

/-- What GET_ARM_STATUS reports of an arm (R60). -/
def Sys2Proof.statusReport (s : State) (a : ArmId) : List Field :=
  let x := s.arm a
  let ofLane (f : LaneId → Chars) : Chars := match x.defn with
    | none => ['-']
    | some d => f d.lane
  [field "ARM" (armText a), field "COMM" (if x.defn.isSome then "YES".toList else "NO".toList),
   field "COND" (if x.locked then "LOCKED".toList
     else if s.headIs a LoadState.inProgress then "ACTIVE".toList else "IDLE".toList),
   field "LOCK" (match x.lockRecord with
     | none => ['-']
     | some (c, det) => c.text ++ ',' :: det.text),
   field "LANE" (ofLane laneText),
   field "LANESTATE" (ofLane fun n => if (s.lane n).shut then "SHUT".toList else "NORMAL".toList),
   field "SHUTCAUSE" (ofLane fun n => match (s.lane n).shutCause with
     | none => ['-']
     | some c => c.text),
   field "BLOCK" (ofLane fun n => if (s.lane n).shut then "OFF".toList else "ON".toList),
   field "STRAY" (numText x.strayVol),
   field "WATCH" (match x.leakWatch with
     | .armed => "ARMED".toList
     | .raised => "RAISED".toList),
   field "HEAD" (match s.head a with
     | none => ['-']
     | some l => numText l.number),
   field "HSTATE" (match s.head a with
     | none => ['-']
     | some l => l.state.text),
   field "QUEUE" (numText (s.armQueue a).length), field "VB" (numText x.valveBase),
   field "VE" (numText x.valveEth)]

/-- R27, R42, R58, R60, R78, R163, R181: the reports of one record, arm or channel give the fields of their rules in order
and change no state, but that GET_PERMISSIVES empties the latched failure set it has reported. The model's choices: a
cause by its name also in LOCK, SHUTCAUSE and the stop records, the text of a detail, the hyphen of a negative number (log
entry 3), PENDING in SETTLING alone (log entry 18), QB=0 and QE=0 for an arm no longer commissioned (log entry 26), and
numbers without leading zeros whatever the request had (log entry 27). -/
def Obligations.RecordsAreReported : Prop :=
  ∀ (f : List Chars) (s : State), s.ready →
    (∀ n, parseLoad f = .ok n →
      (s.load n = none → exec (.getLoad f) s = .next (s.answered s (.no .noSuchLoad))) ∧
      ∀ l, s.load n = some l → exec (.getLoad f) s = .next (s.answered s (.ok
        (loadReport l ++
          [field "QB" (numText (match (s.arm l.arm).defn with
            | none => 0
            | some d => (s.meter d.baseMeter).qAvg)),
           field "QE" (numText (match (s.arm l.arm).defn.bind (·.ethMeter) with
            | none => 0
            | some m => (s.meter m).qAvg))])))) ∧
    (∀ c, parseCode f = .ok c →
      (s.recipe c = none → exec (.getRecipe f) s = .next (s.answered s (.no .noSuchRecipe))) ∧
      ∀ r, s.recipe c = some r → exec (.getRecipe f) s = .next (s.answered s (.ok (recipeReport r)))) ∧
    (∀ a, parseArm f = .ok a →
      ((s.arm a).defn = none → exec (.getArm f) s = .next (s.answered s (.no .notCommissioned))) ∧
      (∀ d, (s.arm a).defn = some d → exec (.getArm f) s = .next (s.answered s (.ok (armReport d)))) ∧
      exec (.getArmStatus f) s = .next (s.answered s (.ok (statusReport s a))) ∧
      exec (.getPermissives f) s = .next (s.answered (s.modArm a fun x => { x with latched := [] }) (.ok
        [field "ARM" (armText a), field "LEVELS" (listText ((s.arm a).levels.toList.map contactText)),
         field "SAT" (match (s.arm a).permissive with
           | none => ['-'] | some true => "YES".toList | some false => "NO".toList),
         field "LATCHED" (listText ((s.arm a).latched.map fun k => numText k.val))]))) ∧
    (∀ i, parseMeter f = .ok i → exec (.getMeter f) s = .next (s.answered s (.ok
      [field "CHANNEL" (meterText i), field "K" (numText (s.meter i).k), field "MF" (numText (s.meter i).mf),
       field "BETA" (numText (s.meter i).beta), field "TDEPTH" (numText (s.meter i).tDepth),
       field "QDEPTH" (numText (s.meter i).qDepth),
       field "ARM" (match s.meterBinding i with | none => ['-'] | some (a, _) => armText a),
       field "ROLE" (match s.meterBinding i with
         | none => ['-']
         | some (_, .base) => "BASE".toList
         | some (_, .ethanol) => "ETHANOL".toList),
       field "TEMP" (intText (s.meter i).tAvg),
       field "PROBE" (match (s.meter i).probe with
         | .waiting => "WAITING".toList | .good => "GOOD".toList | .fault => "FAULT".toList),
       field "SAMPLES" (numText (s.meter i).tHist.length),
       field "VCF" (intText (1000000 -
         (2 * (((s.meter i).beta : Int) * ((s.meter i).tAvg - 150)) + 10) / 20)),
       field "Q" (numText (s.meter i).qAvg),
       field "HIGH" (if (s.meter i).high then "HIGH".toList else "CLEAR".toList)]))) ∧
    ∀ j, parseInjector f = .ok j → exec (.getInjector f) s = .next (s.answered s (.ok
      [field "CHANNEL" (injText j), field "ADDID" (numText (s.injector j).addId),
       field "STROKE" (numText (s.injector j).stroke), field "WIDTH" (numText (s.injector j).width),
       field "PROOFTO" (numText (s.injector j).proofTo),
       field "SUPPLY" (if (s.injector j).supplyUsed then "USED".toList else "UNUSED".toList),
       field "ARM" (match s.injectorArm j with | none => ['-'] | some a => armText a),
       field "STATE" (match (s.injector j).state with
         | .idle => "IDLE".toList | .firing => "FIRING".toList | .awaitProof => "AWAIT_PROOF".toList),
       field "LOAD" (match (s.injector j).strokeLoad with | none => ['-'] | some n => numText n),
       field "PROOFIN" (contactText (s.injector j).proofIn),
       field "SUPPLYIN" (if (s.injector j).supplyLow then "LOW".toList else "NORMAL".toList),
       field "LAG" (match (s.injector j).lagWatch with
         | .armed => "ARMED".toList | .raised => "RAISED".toList),
       field "CATCHUP" (numText (s.injector j).catchUp)]))

/-! ### Samples and readings (R81 to R83, R87 to R89) -/

/-- R81 to R83: a good sample enters the history, whose mean rounded half up is the average; a bad one begins a fault
episode, which on a load in progress is taken as PROBE_FAULT (here with its default class NOTE), its meter kept for the
resume test (R190), or goes on. R87 to R89: a reading turns the window into L/min, keeps the remainder, and brings the average and the high
flag up to date. Nothing else changes. -/
def Obligations.SamplesAndReadingsAreTaken : Prop :=
  ∀ (i : MeterId) (s : State), s.powered = true →
    let m := s.meter i
    (∀ v : Int, -400 ≤ v → v ≤ 600 →
      let hist := (m.tHist ++ [v]).drop (m.tHist.length + 1 - 2 ^ m.tDepth)
      exec (.temperatureSample i v) s = .next (s.modMeter i fun x =>
        { x with tHist := hist, tAvg := (2 * hist.sum + hist.length) / (2 * hist.length), probe := .good })) ∧
    (∀ v : Int, v < -400 ∨ 600 < v → m.probe = .fault → exec (.temperatureSample i v) s = .next s) ∧
    (∀ v : Int, v < -400 ∨ 600 < v → m.probe ≠ .fault →
      (∀ a r, s.meterBinding i = some (a, r) → s.headIs a LoadState.inProgress = false) →
      exec (.temperatureSample i v) s = .next (s.modMeter i fun x => { x with probe := .fault })) ∧
    (∀ (v : Int) (a : ArmId) (r : Role), v < -400 ∨ 600 < v → m.probe ≠ .fault →
      s.meterBinding i = some (a, r) → s.headIs a LoadState.inProgress = true →
      s.causes[Cause.probeFault.index] = .note →
      exec (.temperatureSample i v) s = .next (State.attend .notice
        (State.modHead a (fun l =>
            { l with
              notices := insertCause .probeFault l.notices
              holdDetails := if (.probeFault, .meter i) ∈ l.holdDetails then l.holdDetails
                else l.holdDetails ++ [(.probeFault, .meter i)] })
          (s.modMeter i fun x => { x with probe := .fault })))) ∧
    let num := m.window * 100 * m.mf + m.residue
    let gained := num / m.k
    let hist := (m.qHist ++ [min 9999 (gained * 120 / 1000)]).drop (m.qHist.length + 1 - 2 ^ m.qDepth)
    let avg := hist.sum / hist.length
    let read (high : Bool) : State := s.modMeter i fun x =>
      { x with window := 0, residue := num - gained * m.k, qHist := hist, qAvg := avg, high := high }
    (s.meterBinding i = none → exec (.flowReading i) s = .next (read false)) ∧
    ∀ a r, s.meterBinding i = some (a, r) →
      avg * 10 ≤ (s.defn a).qMax * 11 ∨ m.high = true ∨ s.headIs a LoadState.inProgress = false →
      exec (.flowReading i) s = .next (read (decide ((s.defn a).qMax * 11 < avg * 10)))

/-! ### Injectors (chapter 8) -/

/-- R161, R162: a proof timeout below the pulse width is refused with RANGE; an accepted SET_INJECTOR of an unbound
channel writes the settings it carries, a new stroke volume raising the metrology count. The stroke in flight
and its timers stand, and nothing else changes. -/
def Obligations.SetInjectorWritesTheChannel : Prop :=
  ∀ (f : List Chars) (q : InjectorArgs) (s : State), s.ready → parseSetInjector f = .ok q →
    let j := s.injector q.injector
    let metro := q.stroke.getD j.stroke != j.stroke
    let count := if metro then min 65535 (s.metrology + 1) else s.metrology
    (q.proofTo.getD j.proofTo < q.width.getD j.width →
      exec (.setInjector f) s = .next (s.answered s (.no .range))) ∧
    (q.width.getD j.width ≤ q.proofTo.getD j.proofTo → metro = true → s.calibration = .opened →
      exec (.setInjector f) s = .next (s.answered s (.no .calOpen))) ∧
    (q.width.getD j.width ≤ q.proofTo.getD j.proofTo → metro = false ∨ s.calibration = .closed →
      s.injectorArm q.injector = none →
      exec (.setInjector f) s = .next (s.answered
        { s.modInjector q.injector (fun x =>
            { x with
              addId := q.addId.getD j.addId, stroke := q.stroke.getD j.stroke
              width := q.width.getD j.width, proofTo := q.proofTo.getD j.proofTo
              supplyUsed := q.supply.getD j.supplyUsed }) with metrology := count }
        (.ok [field "CHANNEL" (injText q.injector),
          field "METRO" (if metro then "YES".toList else "NO".toList), field "COUNT" (numText count)])))

/-- R168: the pulse-width expiry of a channel in FIRING brings AWAIT_PROOF, the solenoid OFF, the proof timer running
on; the counters stand. R169: an opening proof input is recorded alone, and a closing one on an IDLE channel.
R174: a change of the supply-low input that raises no cause is recorded alone. -/
def Obligations.ChannelInputsAreRecorded : Prop :=
  ∀ (j : InjId) (s : State), s.powered = true →
    ((s.injector j).state = .firing → (s.injector j).pulseTimer.isSome = true →
      exec (.pulseWidthExpiry j) s =
        .next (s.modInjector j fun x => { x with state := .awaitProof, pulseTimer := none })) ∧
    exec (.proofInputOpen j) s = .next (s.modInjector j fun x => { x with proofIn := .opened }) ∧
    ((s.injector j).state = .idle →
      exec (.proofArrival j) s = .next (s.modInjector j fun x => { x with proofIn := .closed })) ∧
    ∀ low, (low = false ∨ (s.injector j).supplyUsed = false ∨ s.injectorArm j = none ∨
        ∀ a, s.injectorArm j = some a → s.headIs a LoadState.preSettling = false) →
      exec (.supplyLowInputChange j low) s = .next (s.modInjector j fun x => { x with supplyLow := low })

/-- R169, R170, R172: a proof raises the strokes proven of the stroke's entry and sets its consecutive misses to 0, a
proof timer's expiry counts a miss; either frees the channel, which fires the next owed stroke at once while the load is
FLOWING or ENDING. The third miss in a row raises ADDITIVE_FAIL, which as a HOLD takes a FLOWING load to HELD. R173:
none fires while the arm is LOCKED or its lane SHUT. R175, R176: in SETTLING, once the final V has been handed, a proof
lets the channel fire its next catch-up stroke while the stage is CATCHING_UP and its catch-up count below the limit;
otherwise, with every other channel of the load IDLE and proven up to its strokes due, the end is reported and the load
enters ENDED. -/
def Obligations.StrokesAreProvenOrMissed : Prop :=
  ∀ (j : InjId) (a : ArmId) (l : Load) (e : AddEntry) (s : State), s.powered = true →
    s.injectorArm j = some a → s.head a = some l → s.load l.number = some l →
    (l.adds.find? fun x => x.inj == j) = some e → (s.injector j).strokeLoad = some l.number →
    let fired (t : State) : Prop :=
      (t.injector j).state = .firing ∧ (t.injector j).strokeLoad = some l.number ∧
      (t.injector j).pulseTimer = some (s.injector j).width ∧
      (t.injector j).proofTimer = some (s.injector j).proofTo
    let freed (t : State) : Prop :=
      (t.injector j).state = .idle ∧ (t.injector j).strokeLoad = none ∧
      (t.injector j).pulseTimer = none ∧ (t.injector j).proofTimer = none
    let stroke (refire : Prop) (x : AddEntry) (t : State) : Prop :=
      (∃ m x', t.head a = some m ∧ m.state = l.state ∧ (m.adds.find? fun y => y.inj == j) = some x' ∧
        (refire → x' = { x with fired := x.fired + 1 }) ∧ (¬ refire → x' = x)) ∧
      (refire → fired t) ∧ (¬ refire → freed t) ∧
      t.arms = s.arms ∧ t.header = s.header ∧ (∀ k, k ≠ j → t.injector k = s.injector k)
    (l.state = .flowing ∨ l.state = .ending ∨ l.state = .held →
      ((s.injector j).state ≠ .idle → (s.injector j).proofIn = .opened →
        ∃ t, exec (.proofArrival j) s = .next t ∧
          stroke (noStroke s a = false ∧ l.state ≠ .held ∧ e.proven + 1 < e.due)
            { e with proven := e.proven + 1, consec := 0 } t) ∧
      ((s.injector j).proofTimer.isSome = true → e.consec + 1 < 3 →
        ∃ t, exec (.proofTimerExpiry j) s = .next t ∧
          stroke (noStroke s a = false ∧ l.state ≠ .held ∧ e.proven < e.due)
            { e with missed := e.missed + 1, consec := e.consec + 1 } t) ∧
      ((s.injector j).proofTimer.isSome = true → 3 ≤ e.consec + 1 → l.state = .flowing →
        s.causes[Cause.additiveFail.index] = .hold → notEscalated (s.defn a) l → s.waits a = false →
        ∃ t, exec (.proofTimerExpiry j) s = .next t ∧ heldBy .additiveFail (.injector j) a l t ∧
          apartFrom a s t)) ∧
    (l.state = .settling → (s.arm a).flow.settleComplete = true → (s.arm a).endReported = false →
      (s.arm a).endStage = .catchingUp ∨ (s.arm a).endStage = .tripped →
      (s.injector j).state ≠ .idle → (s.injector j).proofIn = .opened → (l.adds.map (·.inj)).Nodup →
      let refire := noStroke s a = false ∧ (s.arm a).endStage = .catchingUp ∧
        (s.injector j).catchUp < (s.defn a).catchUp ∧ e.proven + 1 < e.due
      (refire → ∃ t, exec (.proofArrival j) s = .next t ∧
        stroke True { e with proven := e.proven + 1, consec := 0 } t ∧
        (t.injector j).catchUp = (s.injector j).catchUp + 1) ∧
      (¬ refire → (∀ x ∈ l.adds, x.inj ≠ j → (s.injector x.inj).state = .idle ∧ x.due ≤ x.proven) →
        ∃ t m, exec (.proofArrival j) s = .next t ∧ freed t ∧ m ∈ t.loads ∧ m.number = l.number ∧
          m.state = .ended ∧ m.v = l.v ∧ m.overrun = some (s.arm a).flow.overrun ∧
          m.adds.map (·.proven) = l.adds.map (fun x => if x.inj = j then x.proven + 1 else x.proven) ∧
          (∀ x ∈ m.adds, x.verdict.isSome = true) ∧ (t.arm a).endStage = .none ∧
          t.attention.pending[Source.loadEnded.index] = true))

/-! ### The header (chapter 7) -/

/-- R146: SET_HEADER is refused with IN_USE while an arm is a participant. Otherwise it writes the settings it carries,
derives the pressure state anew where PRESSURE is carried, and answers with what then stands; with no arm waiting
nothing else changes. -/
def Obligations.SetHeaderWritesTheSettings : Prop :=
  ∀ (f : List Chars) (q : HeaderArgs) (s : State), s.ready → parseSetHeader f = .ok q →
    let cap := q.cap.getD s.header.cap
    let used := q.pressure.getD s.header.pressureUsed
    let lost := match q.pressure with
      | none => s.header.lost
      | some u => u && s.header.input == .opened
    let answer := Response.ok [field "CAP" (numText cap),
      field "PRESSURE" (if used then "USED".toList else "UNUSED".toList),
      field "STATE" (if lost then "LOST".toList else "PRESENT".toList)]
    (s.header.parts ≠ [] → exec (.setHeader f) s = .next (s.answered s (.no .inUse))) ∧
    (s.header.parts = [] → ∃ t, exec (.setHeader f) s = .next (s.answered t answer) ∧
      t.header.settings = (cap, used) ∧ t.header.lost = lost ∧ t.link = s.link ∧
      (s.header.queue = [] → t = { s with header :=
        { s.header with cap := cap, pressureUsed := used, lost := lost } }))

/-- R148, R149: a change of the pressure input that leaves the pressure state as it was is recorded alone. A loss takes
every grant to 0 and holds every participant (here with the default class HOLD), and admits no arm; with no arm in
the header the return of pressure changes nothing else. -/
def Obligations.PressureGovernsTheHeader : Prop :=
  ∀ (s : State), s.powered = true →
    (∀ level, s.header.lost = (s.header.pressureUsed && level == .opened) →
      exec (.headerPressureInputChange level) s =
        .next (s.modHeader fun h => { h with input := level })) ∧
    (s.header.pressureUsed = true → s.header.input = .closed → s.header.lost = false →
      ∃ t, exec (.headerPressureInputChange .opened) s = .next t ∧
        t.header.input = .opened ∧ t.header.lost = true ∧ t.header.effCap = 0 ∧
        (∀ p ∈ t.header.parts, p.grant = 0) ∧ (∀ a, t.participates a = true → s.participates a = true) ∧
        t.header.settings = s.header.settings ∧
        (s.causes[Cause.headerPressure.index] = .hold → ∀ a l, s.participates a = true →
          s.head a = some l → l.state = .flowing → notEscalated (s.defn a) l → s.waits a = false →
          heldBy .headerPressure .none a l t)) ∧
    (s.header.pressureUsed = true → s.header.input = .opened → s.header.lost = true →
      ∃ t, exec (.headerPressureInputChange .closed) s = .next t ∧
        t.header.input = .closed ∧ t.header.lost = false ∧ t.header.effCap = s.header.cap ∧
        (s.header.parts = [] → s.header.queue = [] →
          t = s.modHeader fun h => { h with input := .closed, lost := false }))

/-- R7, R107, R155: the head of the admission queue is admitted while pressure is present and floor(C / (n + 1)) is at
least its e_min and that of every participant: it leaves the queue, joins the participants, and its load enters
FLOWING in BODY with its entry share. Otherwise nothing changes. -/
def Obligations.AdmissionFollowsTheCriterion : Prop :=
  ∀ (s : State), s.powered = true →
    (s.header.queue = [] → exec .admission s = .next s) ∧
    ∀ (a : ArmId) (rest : List ArmId), s.header.queue = a :: rest →
      let fair := s.header.cap / (s.header.parts.length + 1)
      let met := s.header.lost = false ∧ (s.defn a).eMin ≤ fair ∧
        ∀ p ∈ s.header.parts, (s.defn p.arm).eMin ≤ fair
      (¬ met → exec .admission s = .next s) ∧
      (met → s.participates a = false → a ∉ rest → ∀ l, s.head a = some l → l.state = .admitting →
        ∃ t m, exec .admission s = .next t ∧ t.participates a = true ∧ t.waits a = false ∧
          t.head a = some m ∧ m.number = l.number ∧ m.state = .flowing ∧ m.phase = .body ∧
          m.admitFrom = none ∧ m.v = l.v ∧ m.dev = l.dev ∧
          m.share = shareCommand l.rb l.dev (s.recipeOf l).h (s.defn a).sMax ∧
          (t.arm a).flow.started = true ∧ t.header.settings = s.header.settings)

/-! ### Settings and inputs (R67, R184, R195, R203 to R205) -/

/-- R184, R203 to R205: SET_CAUSE, CLEAR_ATTENTION, SET_ATTENTION_ENABLE and SET_LINK write what they carry and nothing
else. R67, R195: a change of the calibration switch and a released emergency stop are recorded alone. -/
def Obligations.SettingsAreWritten : Prop :=
  ∀ (f : List Chars) (s : State), s.powered = true →
    (∀ q, s.link.sending = none → parseSetCause f = .ok q → exec (.setCause f) s = .next (s.answered
      { s with causes := s.causes.set q.cause.index q.cls }
      (.ok [field "CODE" (numText q.cause.code), field "NAME" q.cause.text, field "CLASS" q.cls.text]))) ∧
    (∀ n, s.link.sending = none → parseTimeout f = .ok n → exec (.setLink f) s = .next (s.answered
      { s with link := { s.link with timeout := n } } (.ok [field "TIMEOUT" (numText n)]))) ∧
    (∀ names, s.link.sending = none → parseClearAttention f = .ok names →
      ∃ p : Vector Bool 8, (∀ x : Source, p[x.index] = (s.attention.pending[x.index] && !names.contains x)) ∧
        exec (.clearAttention f) s = .next (s.answered
          { s with attention := { s.attention with pending := p } }
          (.ok [field "PENDING" (listText ((allSources.filter fun x => p[x.index]).map Source.text))]))) ∧
    (∀ q, s.link.sending = none → parseEnable f = .ok q →
      ∃ p : Vector Bool 8, (∀ x : Source, p[x.index] =
          if q.sources.contains x then q.action else s.attention.enabled[x.index]) ∧
        exec (.setAttentionEnable f) s = .next (s.answered
          { s with attention :=
            { s.attention with enabled := p, master := q.master.getD s.attention.master } }
          (.ok [field "ENABLED" (listText ((allSources.filter fun x => p[x.index]).map Source.text)),
            field "MASTER" (onOff (q.master.getD s.attention.master))]))) ∧
    (∀ level, exec (.calibrationSwitchChange level) s = .next { s with calibration := level }) ∧
    ∀ n, exec (.emergencyStopRelease n) s = .next (s.modLane n fun x => { x with emergency := false })

/-! ### Permissives, trips and emergency stops (chapter 9) -/

/-- What holds where a TRIP with cause `c` and detail `det` has been taken at an arm that was not LOCKED, on the head
load `l` in ADMITTING … ENDING (R8, R11, R173, R188, R193). -/
def Sys2Proof.trippedBy (c : Cause) (det : Detail) (a : ArmId) (l : Load) (t : State) : Prop :=
  (∃ m, t.head a = some m ∧ m.number = l.number ∧ m.state = .settling ∧ m.pendingOut = some .tripped ∧
    m.share = 0 ∧ m.v = l.v ∧
    (l.stop1 = none → m.stop1 = some { code := .cause c, cls := .trip, detail := det, state := l.state,
                                       phase := if l.state = .flowing ∨ l.state = .held then some l.phase
                                         else none
                                       v := l.v })) ∧
  (t.arm a).locked = true ∧ (t.arm a).lockRecord = some (c, det) ∧ (t.arm a).valveBase = 0 ∧
  (t.arm a).valveEth = 0 ∧ (t.arm a).endStage = .tripped ∧ t.participates a = false ∧ t.waits a = false ∧
  t.attention.pending[Source.armLocked.index] = true

/-- R179, R180: a change of an input that is not used changes its live level alone; a change to the required level
derives the flag; a drop is latched, makes the permissive not satisfied, and on a FLOWING load is taken as a trip
(a safety input) or by the class of PERMISSIVE (here HOLD). -/
def Obligations.PermissiveInputsAct : Prop :=
  ∀ (a : ArmId) (k : PermId) (level : Contact) (s : State), s.powered = true →
    (s.arm a).levels[k] ≠ level →
    let leveled : State := s.modArm a fun x => { x with levels := x.levels.set k level }
    let used := (s.arm a).defn.bind fun d => d.perms[k]
    (used = none → exec (.permissiveInputChange a k level) s = .next leveled) ∧
    (∀ u, used = some u → u.level = level → exec (.permissiveInputChange a k level) s =
      .next (leveled.modArm a fun x => { x with permissive := x.derivedPermissive })) ∧
    (∀ u, used = some u → u.level ≠ level →
      (∀ l, s.head a = some l → l.state = .authorized ∨ l.state = .held ∨ l.state = .settling) →
      exec (.permissiveInputChange a k level) s = .next (leveled.modArm a fun x =>
        { x with latched := insertInput k x.latched, permissive := some false })) ∧
    ∀ u l, used = some u → u.level ≠ level → s.head a = some l → l.state = .flowing → s.waits a = false →
      (u.safety = true → (s.arm a).locked = false → s.causes[Cause.safetyPermissive.index] = .trip →
        ∃ t, exec (.permissiveInputChange a k level) s = .next t ∧
          trippedBy .safetyPermissive (.input k) a l t ∧ (t.arm a).permissive = some false ∧
          k ∈ (t.arm a).latched) ∧
      (u.safety = false → notEscalated (s.defn a) l → s.causes[Cause.permissive.index] = .hold →
        ∃ t, exec (.permissiveInputChange a k level) s = .next t ∧
          heldBy .permissive (.input k) a l t ∧ (t.arm a).permissive = some false ∧ k ∈ (t.arm a).latched)

/-- R61, R195: an emergency stop shuts its lane, keeping the first shut cause, and locks every arm of it, keeping each
lock record there is; no arm of the lane is left with a load in ADMITTING … ENDING, and none begins a stroke (R173). No
other lane is shut and no arm of another lane or of none is locked by it. -/
def Obligations.EmergencyStopShutsTheLane : Prop :=
  ∀ (n : LaneId) (s : State), s.powered = true → s.headerOk → (s.lane n).emergency = false →
    ∃ t, exec (.emergencyStopActive n) s = .next t ∧
      (t.lane n).emergency = true ∧ (t.lane n).shut = true ∧
      ((s.lane n).shut = false → (t.lane n).shutCause = some .emergencyStop ∧
        t.attention.pending[Source.laneShut.index] = true ∧
        ∀ a, s.laneOf a = some n → (t.arm a).strayVol = 0) ∧
      ((s.lane n).shut = true → (t.lane n).shutCause = (s.lane n).shutCause) ∧
      (∀ k, k ≠ n → t.lane k = s.lane k) ∧
      (∀ a, s.laneOf a = some n → (t.arm a).locked = true ∧
        (t.arm a).lockRecord = (if (s.arm a).locked then (s.arm a).lockRecord
          else some (.emergencyStop, .lane n)) ∧
        t.headIs a LoadState.preSettling = false ∧
        (∀ l, s.head a = some l → l.state.inProgress = true →
          ∃ m, t.head a = some m ∧ m.number = l.number ∧ m.state = .settling ∧
            m.pendingOut = some .tripped ∧ m.adds = l.adds)) ∧
      ∀ a, s.laneOf a ≠ some n → (t.arm a).locked = (s.arm a).locked

/-! ### Flow (chapter 6) -/

/-- R127, R130, R131, R70: a ramp tick moves the demand of a FLOWING or ENDING load one step toward its target, and a
changed demand is split: the flow is cut to the grant at the same share, and the commands follow the setpoints. In
any other state, and at the target, nothing changes. -/
def Obligations.RampTickMovesTheDemand : Prop :=
  ∀ (a : ArmId) (l : Load) (s : State), s.powered = true → s.head a = some l →
    let d := s.defn a
    let f := (s.arm a).flow
    let limit := if l.state = .ending ∧ f.limit = 0 then d.rstFlow else f.limit
    let target := if l.rstLeft = 0 then limit else min limit d.rstFlow
    let step := max 1 (f.rate / 10)
    let q := if f.rate = 0 then target
      else if f.qDem ≤ target then min target (f.qDem + step) else max target (f.qDem - step)
    (l.state ≠ .flowing → l.state ≠ .ending → exec (.rampTick a) s = .next s) ∧
    (q = f.qDem → exec (.rampTick a) s = .next s) ∧
    (l.state = .flowing ∨ l.state = .ending → q ≠ f.qDem →
      let pre := min q d.qMax
      let demand := pre * l.share / 10000
      ∃ t, exec (.rampTick a) s = .next t ∧
        let x := t.arm a
        x.flow.qDem = q ∧
        x.flow.q = (if l.share = 0 then pre else match t.grantOf a with
          | none => pre
          | some g => if g < demand then min pre (g * 10000 / l.share) else pre) ∧
        x.flow.qEth = (if l.state = .flowing ∧ l.phase = .body then x.flow.q * l.share / 10000 else 0) ∧
        x.flow.qBase = x.flow.q - x.flow.qEth ∧
        x.valveBase = min 4095 ((2 * (x.flow.qBase * 4095) + d.fsBase) / (2 * d.fsBase)) ∧
        x.valveEth = min 4095 ((2 * (x.flow.qEth * 4095) + d.fsEth) / (2 * d.fsEth)) ∧
        (s.participates a = true → ∃ p ∈ t.header.parts, p.arm = a ∧ p.demand = demand) ∧
        (s.participates a = false → t.header = s.header) ∧
        t.loads = s.loads ∧ t.injectors = s.injectors ∧ t.lanes = s.lanes ∧ t.meters = s.meters ∧
        t.recipes = s.recipes ∧ t.attention = s.attention ∧ t.link = s.link ∧
        ∀ b, b ≠ a → s.participates b = false → t.arm b = s.arm b)

/-- R14, R116, R139, R165, R175, R176: the settle expiry closes the net of the load's accounts, works out the overrun
and writes the strokes due at the final V. At AWAITING_FINAL the catch-up begins: each IDLE channel that owes a stroke,
with fewer than 3 misses in a row and a catch-up count below the limit, fires one; after a trip, and while the arm is
LOCKED or its lane SHUT (R173), none does. While a channel of the load is busy it stays in SETTLING; with every one IDLE
the load enters ENDED at once. R140: the maximum settle raises LEAK_BY where a pulse came, which locks an arm not LOCKED
and marks the load TRIPPED; where none came the timer stops and nothing else changes. -/
def Obligations.SettleTimersExpire : Prop :=
  ∀ (a : ArmId) (l : Load) (s : State), s.powered = true → s.head a = some l → l.state = .settling →
    ((s.arm a).flow.settleTimer.isSome = true → (l.adds.map (·.inj)).Nodup →
      s.causes[Cause.overrun.index] = .note → (s.arm a).endReported = false →
      (s.arm a).endStage = .awaitingFinal ∨ (s.arm a).endStage = .tripped →
      let due (e : AddEntry) : Nat := l.v * e.dose / ((s.injector e.inj).stroke * 10000)
      let fires (e : AddEntry) : Bool :=
        !noStroke s a && (s.arm a).endStage == .awaitingFinal && (s.injector e.inj).state == .idle &&
          decide ((s.injector e.inj).catchUp < (s.defn a).catchUp) && decide (e.consec < 3) &&
          decide (e.proven < due e)
      let counted (e : AddEntry) : AddEntry :=
        { e with due := due e, fired := if fires e then e.fired + 1 else e.fired }
      let closed (m : Load) : Prop :=
        m.number = l.number ∧ m.v = l.v ∧ m.vc = l.v ∧
        m.base = closedAccount (s.meter (s.defn a).baseMeter) l.base ∧
        m.eth = (match (s.defn a).ethMeter with
          | none => l.eth
          | some e => closedAccount (s.meter e) l.eth) ∧
        (l.preset * 1000 < l.v → .overrun ∈ m.notices)
      ((∀ e ∈ l.adds, (s.injector e.inj).state = .idle ∧ fires e = false) →
        ∃ t m, exec (.settleTimerExpiry a) s = .next t ∧ m ∈ t.loads ∧ closed m ∧ m.state = .ended ∧
          m.overrun = some (l.v - l.preset * 1000) ∧
          m.outcome = some (match l.pendingOut with
            | none => .complete
            | some .short => .short
            | some .tripped => .tripped) ∧
          m.adds = l.adds.map (fun e =>
            { counted e with verdict := some (addVerdictOf l.v e.dose e.tol e.proven (s.injector e.inj).stroke) }) ∧
          m.frac = some (ethFraction m.eth.net m.base.net) ∧ m.mce = s.metrology ∧
          t.injectors = s.injectors ∧ t.attention.pending[Source.loadEnded.index] = true ∧
          (t.arm a).flow.settleTimer = none ∧ (t.arm a).flow.maxTimer = none ∧
          (t.arm a).endStage = .none) ∧
      ((∃ e ∈ l.adds, (s.injector e.inj).state ≠ .idle ∨ fires e = true) →
        ∃ t m, exec (.settleTimerExpiry a) s = .next t ∧ t.head a = some m ∧ closed m ∧
          m.state = .settling ∧ m.pendingOut = l.pendingOut ∧ m.adds = l.adds.map counted ∧
          (t.arm a).flow.settleComplete = true ∧ (t.arm a).flow.overrun = l.v - l.preset * 1000 ∧
          (t.arm a).flow.settleTimer = none ∧ (t.arm a).flow.maxTimer = none ∧
          (t.arm a).endReported = false ∧
          (t.arm a).endStage = (if (s.arm a).endStage = .awaitingFinal then .catchingUp else .tripped) ∧
          (∀ e ∈ l.adds,
            let j := s.injector e.inj
            t.injector e.inj = if fires e then
              { j with
                state := .firing, strokeLoad := some l.number, pulseTimer := some j.width
                proofTimer := some j.proofTo, catchUp := j.catchUp + 1 }
              else j) ∧
          ∀ j, (∀ e ∈ l.adds, e.inj ≠ j) → t.injector j = s.injector j)) ∧
    ((s.arm a).flow.maxTimer.isSome = true → (s.arm a).flow.lastSettle = none →
      exec (.maximumSettleExpiry a) s = .next (s.modFlow a fun f => { f with maxTimer := none })) ∧
    (∀ m, (s.arm a).flow.maxTimer.isSome = true → (s.arm a).flow.lastSettle = some m →
      (s.arm a).flow.settleComplete = false → (s.arm a).locked = false →
      s.causes[Cause.leakBy.index] = .trip →
      ∃ t k, exec (.maximumSettleExpiry a) s = .next t ∧ t.head a = some k ∧ k.state = .settling ∧
        k.pendingOut = some .tripped ∧ k.v = l.v ∧ (t.arm a).flow.maxTimer = none ∧
        (t.arm a).flow.settleTimer = (s.arm a).flow.settleTimer ∧ (t.arm a).locked = true ∧
        (t.arm a).lockRecord = some (.leakBy, .meter m) ∧ t.lanes = s.lanes ∧
        t.attention.pending[Source.armLocked.index] = true)

/-! ### The link timer, supply, RESTART and FACTORY_CLEAR (chapter 10) -/

/-- R198, R205(b): the expiry of the running link timer stops it and raises LINK_LOST (here with the default class NOTE)
on the head load of every commissioned arm in ADMITTING … ENDING, and on nothing else. -/
def Obligations.LinkTimeoutRaisesLinkLost : Prop :=
  ∀ (s : State), s.powered = true → s.link.timer.isSome = true → s.causes[Cause.linkLost.index] = .note →
    ∃ t, exec .linkTimeoutExpiry s = .next t ∧ t.link = { s.link with timer := none } ∧
      t.arms = s.arms ∧ t.header = s.header ∧ t.lanes = s.lanes ∧ t.injectors = s.injectors ∧
      t.meters = s.meters ∧ t.recipes = s.recipes ∧
      (∀ a l, (s.arm a).defn.isSome = true → s.head a = some l → l.state.preSettling = true →
        t.head a = some { l with notices := insertCause .linkLost l.notices } ∧
        t.attention.pending[Source.notice.index] = true) ∧
      (∀ a, (s.arm a).defn = none ∨ s.headIs a LoadState.preSettling = false → t.head a = s.head a) ∧
      ((∀ a, (s.arm a).defn = none ∨ s.headIs a LoadState.preSettling = false) →
        t.loads = s.loads ∧ t.attention = s.attention)

/-- What retained memory holds besides the load and recipe tables (R206). -/
def Sys2Proof.sameRetained (s t : State) : Prop :=
  (∀ a, (t.arm a).defn = (s.arm a).defn) ∧
  (∀ a, (s.arm a).locked = true →
    (t.arm a).locked = true ∧ (t.arm a).lockRecord = (s.arm a).lockRecord) ∧
  (∀ n, (s.lane n).shut = true → (t.lane n).shut = true ∧ (t.lane n).shutCause = (s.lane n).shutCause) ∧
  t.metrology = s.metrology ∧ (∀ m, (t.meter m).settings = (s.meter m).settings) ∧
  (∀ j, (t.injector j).settings = (s.injector j).settings) ∧ t.header.settings = s.header.settings ∧
  t.causes = s.causes ∧ t.attention.enabled = s.attention.enabled ∧
  t.attention.master = s.attention.master ∧ t.link.timeout = s.link.timeout

/-- What every block's live state is after power restore, RESTART and FACTORY_CLEAR (R72, R91, R141, R158, R178,
R182). -/
def Sys2Proof.freshLive (t : State) : Prop :=
  (∀ a, (t.arm a).valveBase = 0 ∧ (t.arm a).valveEth = 0 ∧ (t.arm a).flow = FlowState.fresh ∧
    (t.arm a).strayVol = 0 ∧ (t.arm a).leakWatch = .armed ∧ (t.arm a).latched = [] ∧
    (t.arm a).permissive = (t.arm a).derivedPermissive) ∧
  (∀ m, (t.meter m).tHist = [] ∧ (t.meter m).tAvg = 150 ∧ (t.meter m).probe = .waiting ∧
    (t.meter m).window = 0 ∧ (t.meter m).qAvg = 0) ∧
  (∀ j, (t.injector j).state = .idle ∧ (t.injector j).strokeLoad = none ∧
    (t.injector j).lagWatch = .armed ∧ (t.injector j).catchUp = 0) ∧
  t.header.parts = [] ∧ t.header.queue = [] ∧ t.link.timer = none ∧ t.link.receiving = false ∧
  t.attention.pending[Source.powerRestored.index] = true

/-- R29, R206, R207: loss of supply leaves retained memory as it stood and releases the attention output. Power restore
takes retained memory up, begins the live state anew, ends every load in progress INTERRUPTED with its volume
kept, leaves every other record alone and shuts the lanes whose emergency stop is active. -/
def Obligations.SupplyIsLostAndRestored : Prop :=
  ∀ (s : State), s.loadTableOk →
    (s.powered = true → ∃ t, exec .supplyLoss s = .next t ∧ t.powered = false ∧ sameRetained s t ∧
      t.loads = s.loads ∧ t.recipes = s.recipes ∧ t.attentionLine = false ∧
      (∀ n, (t.lane n).shut = (s.lane n).shut) ∧ ∀ a, (t.arm a).locked = (s.arm a).locked) ∧
    ∀ inp, ∃ t, exec (.powerRestore inp) s = .next t ∧ t.powered = true ∧ sameRetained s t ∧ freshLive t ∧
      t.link.switches = inp.switches ∧ t.link.sending = none ∧ t.calibration = inp.calibration ∧
      t.header.lost = (s.header.pressureUsed && inp.pressure == .opened) ∧
      t.loads.map (·.number) = s.loads.map (·.number) ∧
      (∀ l ∈ s.loads, l.state.inProgress = false → l ∈ t.loads) ∧
      (∀ l ∈ s.loads, l.state.inProgress = true → ∃ m ∈ t.loads, m.number = l.number ∧ m.state = .ended ∧
        m.outcome = some .interrupted ∧ m.v = l.v ∧ m.overrun = some (l.v - l.preset * 1000) ∧
        m.stop1 = l.stop1 ∧ m.holds = l.holds ∧ m.mce = s.metrology ∧
        t.attention.pending[Source.loadEnded.index] = true) ∧
      ∀ n, inp.emergency[n] = true → (t.lane n).shut = true ∧
        ∀ a, s.laneOf a = some n → (s.lane n).shut = false → (t.arm a).locked = true

/-- R208, R209: RESTART is refused with a field and while a load is in progress; accepted, it keeps every record and
setting, takes the rotary switches over and begins the live state anew. FACTORY_CLEAR is refused with a field, with
the calibration switch open and with a record in the table; accepted, it empties and clears every block, raises
the metrology count and keeps the switches. Both stop the link timer and answer with the old address. -/
def Obligations.RestartAndFactoryClear : Prop :=
  ∀ (f : List Chars) (sw : Switches) (s : State), s.ready →
    (f ≠ [] → exec (.restart f sw) s = .next (s.answered s (.no .format)) ∧
      exec (.factoryClear f) s = .next (s.answered s (.no .format))) ∧
    ((∃ l ∈ s.loads, l.state.inProgress = true) →
      exec (.restart [] sw) s = .next (s.answered s (.no .wrongState))) ∧
    ((∀ l ∈ s.loads, l.state.inProgress = false) →
      ∃ t, exec (.restart [] sw) s = .next (s.answeredStopped t (.okWord "RESTART".toList)) ∧
        t.loads = s.loads ∧ t.recipes = s.recipes ∧ t.link.switches = sw ∧ sameRetained s t ∧
        freshLive t) ∧
    (s.calibration = .opened → exec (.factoryClear []) s = .next (s.answered s (.no .calOpen))) ∧
    (s.calibration = .closed → s.loads ≠ [] →
      exec (.factoryClear []) s = .next (s.answered s (.no .inUse))) ∧
    (s.calibration = .closed → s.loads = [] →
      ∃ t, exec (.factoryClear []) s = .next (s.answeredStopped t (.okWord "FACTORY_CLEAR".toList)) ∧
        t.loads = [] ∧ t.recipes = [] ∧ t.metrology = min 65535 (s.metrology + 1) ∧
        (∀ a, (t.arm a).defn = none ∧ (t.arm a).locked = false ∧ (t.arm a).lockRecord = none) ∧
        (∀ n, (t.lane n).shut = (s.lane n).emergency) ∧
        (∀ m, (t.meter m).settings = (100000, 10000, 0, 2, 1)) ∧
        (∀ j, (t.injector j).settings = (1, 1000, 200, 1000, false)) ∧
        t.header.settings = (600, false) ∧ (∀ c : Cause, t.causes[c.index] = c.default) ∧
        (∀ i : Fin 8, t.attention.enabled[i] = true) ∧ t.attention.master = true ∧
        t.link.timeout = 0 ∧ t.link.switches = s.link.switches ∧ freshLive t)

/-! ### What every step keeps -/

/-- R1, R2, R31, Table 1.1: every step keeps the load table within 32 records of different numbers and the recipe table
within 32 in ascending code order, an outcome and verdicts on exactly the ENDED records, and each net carry within
0 … 999,999. -/
def Obligations.StepKeepsTheTables : Prop :=
  ∀ s t : State, s.loadTableOk → s.recipeTableOk → s.recordsOk → s.carriesOk → step s = .next t →
    t.loadTableOk ∧ t.recipeTableOk ∧ t.recordsOk ∧ t.carriesOk

/-- R3: every step keeps at most three records in each arm's queue, with only the head in a state other than
AUTHORIZED. -/
def Obligations.StepKeepsTheArmQueues : Prop := ∀ s t : State, s.queuesOk → step s = .next t → t.queuesOk

/-- R150, R154: every step keeps the admission queue to arms whose head load is in ADMITTING and the participants to arms
whose head load is FLOWING in BODY, each at most once, in a table whose arm queues are as R3 says
(StepKeepsTheArmQueues). -/
def Obligations.StepKeepsTheHeaderMembers : Prop :=
  ∀ s t : State, s.queuesOk → s.headerOk → step s = .next t → t.headerOk

/-- R133: every step keeps both valve commands at 0 unless the head load is FLOWING or ENDING, and the ethanol command at
0 unless that load is FLOWING in BODY, in a table whose arm queues are as R3 says (StepKeepsTheArmQueues). -/
def Obligations.StepKeepsTheValvesShut : Prop :=
  ∀ s t : State, s.queuesOk → s.valvesFollowLoad → step s = .next t → t.valvesFollowLoad

/-- R152: every step keeps each grant within its demand and the sum of the grants within the effective capacity. -/
def Obligations.StepKeepsTheGrants : Prop := ∀ s t : State, s.grantsOk → step s = .next t → t.grantsOk

/-- R70, R160, R179, R183, R59, R61: every step keeps the valve commands within 0 … 4095, a stroke and its timers on
exactly the channels that are not IDLE, each permissive flag as its inputs give it, each class among those allowed,
and a lock record and a shut cause exactly where there is a lock and a SHUT lane. -/
def Obligations.StepKeepsTheFlags : Prop :=
  ∀ s t : State, s.valvesInRange → s.strokesOk → s.permissivesOk → s.causesOk → s.locksOk → step s = .next t →
    t.valvesInRange ∧ t.strokesOk ∧ t.permissivesOk ∧ t.causesOk ∧ t.locksOk

/-- The state after reset meets everything that every step keeps. What the manual gives for reset is the factory state
and the first power restore; the levels of the inputs are the model's choice (log entry 2). -/
def Obligations.ResetMeetsTheInvariants : Prop :=
  State.reset.loadTableOk ∧ State.reset.recipeTableOk ∧ State.reset.recordsOk ∧ State.reset.carriesOk ∧
  State.reset.queuesOk ∧ State.reset.headerOk ∧ State.reset.valvesFollowLoad ∧ State.reset.grantsOk ∧
  State.reset.valvesInRange ∧ State.reset.strokesOk ∧ State.reset.permissivesOk ∧ State.reset.causesOk ∧
  State.reset.locksOk

/-! ### Rules over every command -/

/-- R16: whatever comes, an ENDED record keeps every field until RETIRE_LOAD removes it, where no stroke in flight
belongs to it (R176 lets none). -/
def Obligations.EndedRecordsStand : Prop :=
  ∀ (c : Instr) (s t : State) (l : Load), exec c s = .next t → (∀ f, c ≠ .retireLoad f) → l ∈ s.loads →
    l.state = .ended → (∀ j, (s.injector j).strokeLoad ≠ some l.number) → l ∈ t.loads

/-- R51, R59, R61, R69, R74, R145, R159, R183, R201, R205: each setting changes only by the requests its rule names; a lock
falls only by RESET_ARM, RESET_LANE or FACTORY_CLEAR, a SHUT lane only by the last two; the metrology count never
falls. -/
def Obligations.OnlyTheirRequestsChangeSettings : Prop :=
  ∀ (c : Instr) (s t : State), exec c s = .next t → (∀ f, c ≠ .factoryClear f) →
    ((∀ f, c ≠ .setMeter f) → ∀ m, (t.meter m).settings = (s.meter m).settings) ∧
    ((∀ f, c ≠ .setInjector f) → ∀ j, (t.injector j).settings = (s.injector j).settings) ∧
    ((∀ f, c ≠ .setMeter f) → (∀ f, c ≠ .setInjector f) → t.metrology = s.metrology) ∧
    min 65535 s.metrology ≤ t.metrology ∧
    ((∀ f, c ≠ .setHeader f) → t.header.settings = s.header.settings) ∧
    ((∀ f, c ≠ .setCause f) → t.causes = s.causes) ∧
    ((∀ f, c ≠ .setAttentionEnable f) →
      t.attention.enabled = s.attention.enabled ∧ t.attention.master = s.attention.master) ∧
    ((∀ f, c ≠ .setLink f) → t.link.timeout = s.link.timeout) ∧
    ((∀ f, c ≠ .setArm f) → (∀ f, c ≠ .decommissionArm f) → ∀ a, (t.arm a).defn = (s.arm a).defn) ∧
    ((∀ f, c ≠ .resetLane f) → ∀ n, (s.lane n).shut = true →
      (t.lane n).shut = true ∧ (t.lane n).shutCause = (s.lane n).shutCause) ∧
    ((∀ f, c ≠ .resetArm f) → (∀ f, c ≠ .resetLane f) → ∀ a, (s.arm a).locked = true →
      (t.arm a).locked = true ∧ (t.arm a).lockRecord = (s.arm a).lockRecord)

/-! ### Arithmetic -/

/-- R152: the filling keeps the participants and their demands in order, grants none more than it asks for, hands out the
lesser of the capacity and the sum of the demands, and leaves each participant it cuts at least the whole part of
its equal share. There is one fair share: a demand up to it is granted whole, and the others get it, the earliest of
them one more until the leftover is exhausted. -/
def Obligations.FillingSharesTheCapacity : Prop :=
  ∀ (cap : Nat) (parts : List Part),
    let g := fillGrants cap parts
    g.map (·.arm) = parts.map (·.arm) ∧ g.map (·.demand) = parts.map (·.demand) ∧
    (∀ p ∈ g, p.grant ≤ p.demand) ∧
    (g.map (·.grant)).sum = min cap (parts.map (·.demand)).sum ∧
    (∀ p ∈ g, p.grant < p.demand → cap / parts.length ≤ p.grant) ∧
    ∃ fair left : Nat,
      (∀ p ∈ g, p.demand ≤ fair → p.grant = p.demand) ∧
      (g.filter fun p => fair < p.demand).map (·.grant) =
        List.replicate left (fair + 1) ++
          List.replicate ((g.filter fun p => fair < p.demand).length - left) fair

/-- 00_scope 1.6, R70, R84, R94, R107, R110, R118, R119, R165: the quotients round half up; a VCF lies within 910,000 …
1,110,000 and is 1,000,000 at 15.0 °C; a valve command lies within 0 … 4095, is 0 for a setpoint of 0 and full from
the full-scale flow on; the two targets make up the preset; a share command never exceeds the arm's; an ethanol
fraction lies within 0 … 10,000; the strokes due do not fall as the volume grows. -/
def Obligations.QuantitiesStayInTheirRanges : Prop :=
  (∀ n d : Int, 0 < d → 2 * d * roundHalfUp n d ≤ 2 * n + d ∧ 2 * n + d < 2 * d * (roundHalfUp n d + 1)) ∧
  (∀ (beta : Nat) (t : Int), beta ≤ 2000 → -400 ≤ t → t ≤ 600 → 910000 ≤ vcf beta t ∧ vcf beta t ≤ 1110000) ∧
  (∀ beta : Nat, vcf beta 150 = 1000000) ∧
  (∀ q fs : Nat, 0 < fs → valveCommand q fs ≤ 4095 ∧ valveCommand 0 fs = 0 ∧
    (fs ≤ q → valveCommand q fs = 4095)) ∧
  (∀ preset r : Nat, r ≤ 10000 → ethTarget preset r + baseTarget preset r = preset * 1000) ∧
  (∀ (rb h sMax : Nat) (d : Int), shareCommand rb d h sMax ≤ sMax) ∧
  (∀ (rb h sMax : Nat) (d e : Int), d ≤ e → shareCommand rb d h sMax ≤ shareCommand rb e h sMax) ∧
  (∀ e b : Nat, ethFraction e b ≤ 10000) ∧
  (∀ e b r tol : Nat, (ethVerdictOf e b r tol = .notDelivered ↔ e = 0 ∧ b = 0) ∧
    (ethVerdictOf e b r tol = .inSpec →
      (ethFraction e b : Int) - r ≤ tol ∧ (r : Int) - ethFraction e b ≤ tol)) ∧
  ∀ v w dose stroke : Nat, v ≤ w → strokesDue v dose stroke ≤ strokesDue w dose stroke
end

