-- ==== Sys2Proof/Laws/Lists.lean ====
section
/-! SUPPORT. What the named operations over lists can do, said once: updates and removals of the first match,
the sets kept in order, and the orders the manual leaves open. -/

namespace Sys2Proof.Machine

/-! ### updFirst -/

theorem updFirst_cases {α : Type} {p : α → Bool} {f : α → α} {l : List α} :
    (updFirst p f l = l ∧ ∀ x ∈ l, p x = false) ∨
    ∃ as x bs, l = as ++ x :: bs ∧ (∀ y ∈ as, p y = false) ∧ p x = true ∧
      updFirst p f l = as ++ f x :: bs := by
  induction l with
  | nil => exact .inl ⟨rfl, fun _ h => by cases h⟩
  | cons y ys ih =>
    by_cases hy : p y = true
    · exact .inr ⟨[], y, ys, rfl, by simp, hy, by simp [updFirst, hy]⟩
    · simp only [Bool.not_eq_true] at hy
      rcases ih with ⟨he, hn⟩ | ⟨as, x, bs, rfl, ha, hx, he⟩
      · refine .inl ⟨by simp [updFirst, hy, he], ?_⟩
        intro z hz
        rcases List.mem_cons.mp hz with rfl | hz
        · exact hy
        · exact hn z hz
      · refine .inr ⟨y :: as, x, bs, rfl, ?_, hx, by simp [updFirst, hy, he]⟩
        intro z hz
        rcases List.mem_cons.mp hz with rfl | hz
        · exact hy
        · exact ha z hz

@[simp] theorem updFirst_length {α : Type} (p : α → Bool) (f : α → α) (l : List α) :
    (updFirst p f l).length = l.length := by
  rcases updFirst_cases (p := p) (f := f) (l := l) with ⟨h, -⟩ | ⟨as, x, bs, rfl, -, -, h⟩ <;> simp [h]

/-- A reading that the update does not change is unchanged along the list. -/
theorem updFirst_map {α β : Type} {p : α → Bool} {f : α → α} {g : α → β} {l : List α}
    (h : ∀ x ∈ l, p x = true → g (f x) = g x) : (updFirst p f l).map g = l.map g := by
  rcases updFirst_cases (p := p) (f := f) (l := l) with ⟨he, -⟩ | ⟨as, x, bs, rfl, -, hx, he⟩
  · rw [he]
  · rw [he]
    simp [h x (by simp) hx]

theorem mem_updFirst {α : Type} {p : α → Bool} {f : α → α} {l : List α} {y : α}
    (h : y ∈ updFirst p f l) : y ∈ l ∨ ∃ x ∈ l, p x = true ∧ y = f x := by
  rcases updFirst_cases (p := p) (f := f) (l := l) with ⟨he, -⟩ | ⟨as, x, bs, rfl, -, hx, he⟩
  · rw [he] at h
    exact .inl h
  · rw [he] at h
    rcases List.mem_append.mp h with h | h
    · exact .inl (by simp [h])
    · rcases List.mem_cons.mp h with rfl | h
      · exact .inr ⟨x, by simp, hx, rfl⟩
      · exact .inl (by simp [h])

theorem mem_updFirst_of_not {α : Type} {p : α → Bool} {f : α → α} {l : List α} {y : α}
    (h : y ∈ l) (hy : p y = false) : y ∈ updFirst p f l := by
  rcases updFirst_cases (p := p) (f := f) (l := l) with ⟨he, -⟩ | ⟨as, x, bs, rfl, -, hx, he⟩
  · rw [he]
    exact h
  · rw [he]
    rcases List.mem_append.mp h with h | h
    · simp [h]
    · rcases List.mem_cons.mp h with rfl | h
      · rw [hx] at hy; cases hy
      · simp [h]

/-- Looking for the member that was updated, where the update keeps the test. -/
theorem find?_updFirst {α : Type} {p : α → Bool} {f : α → α} {l : List α}
    (h : ∀ x ∈ l, p x = true → p (f x) = true) :
    (updFirst p f l).find? p = (l.find? p).map f := by
  induction l with
  | nil => rfl
  | cons y ys ih =>
    by_cases hy : p y = true
    · simp [updFirst, hy, h y (by simp) hy]
    · simp only [Bool.not_eq_true] at hy
      simp [updFirst, hy, ih fun x hx => h x (by simp [hx])]

/-- Looking with another test, which holds of no member the update may hit, before or after. -/
theorem find?_updFirst_of_ne {α : Type} {p q : α → Bool} {f : α → α} {l : List α}
    (h : ∀ x ∈ l, p x = true → q x = false ∧ q (f x) = false) :
    (updFirst p f l).find? q = l.find? q := by
  induction l with
  | nil => rfl
  | cons y ys ih =>
    by_cases hy : p y = true
    · simp [updFirst, hy, (h y (by simp) hy).1, (h y (by simp) hy).2]
    · simp only [Bool.not_eq_true] at hy
      simp [updFirst, hy, List.find?_cons, ih fun x hx => h x (by simp [hx])]

theorem filter_updFirst_of_ne {α : Type} {p q : α → Bool} {f : α → α} {l : List α}
    (h : ∀ x ∈ l, p x = true → q x = false ∧ q (f x) = false) :
    (updFirst p f l).filter q = l.filter q := by
  induction l with
  | nil => rfl
  | cons y ys ih =>
    by_cases hy : p y = true
    · simp [updFirst, hy, (h y (by simp) hy).1, (h y (by simp) hy).2]
    · simp only [Bool.not_eq_true] at hy
      simp [updFirst, hy, List.filter_cons, ih fun x hx => h x (by simp [hx])]

/-- Two updates of the same member are one. -/
theorem updFirst_updFirst {α : Type} {p : α → Bool} {f g : α → α} {l : List α}
    (h : ∀ x ∈ l, p x = true → p (f x) = true) :
    updFirst p g (updFirst p f l) = updFirst p (fun x => g (f x)) l := by
  induction l with
  | nil => rfl
  | cons y ys ih =>
    by_cases hy : p y = true
    · simp [updFirst, hy, h y (by simp) hy]
    · simp only [Bool.not_eq_true] at hy
      simp [updFirst, hy, ih fun x hx => h x (by simp [hx])]

/-- Two updates that agree on the member found are the same. -/
theorem updFirst_congr {α : Type} {p : α → Bool} {f g : α → α} {l : List α}
    (h : ∀ x, l.find? p = some x → f x = g x) : updFirst p f l = updFirst p g l := by
  induction l with
  | nil => rfl
  | cons y ys ih =>
    by_cases hy : p y = true
    · simp [updFirst, hy, h y (by simp [hy])]
    · simp only [Bool.not_eq_true] at hy
      simp [updFirst, hy, ih fun x hx => h x (by simp [hy, hx])]

/-- Two tests that find the same member update the same place. -/
theorem updFirst_test_congr {α : Type} {p q : α → Bool} {f : α → α} {l : List α} {x : α}
    (hp : l.find? p = some x) (hq : l.find? q = some x) : updFirst p f l = updFirst q f l := by
  induction l with
  | nil => rfl
  | cons y ys ih =>
    have hpx := List.find?_some hp
    have hqx := List.find?_some hq
    by_cases hy : p y = true <;> by_cases hy' : q y = true
    · simp [updFirst, hy, hy']
    · simp only [List.find?_cons, hy] at hp
      cases hp
      exact absurd hqx hy'
    · simp only [List.find?_cons, hy'] at hq
      cases hq
      exact absurd hpx hy
    · simp only [Bool.not_eq_true] at hy hy'
      simp only [List.find?_cons, hy] at hp
      simp only [List.find?_cons, hy'] at hq
      simp [updFirst, hy, hy', ih hp hq]

/-- An update keeps every member related to itself, where it relates the one it hits to its image. -/
theorem updFirst_forall₂ {α : Type} {R : α → α → Prop} {p : α → Bool} {f : α → α} {l : List α}
    (hr : ∀ x, R x x) (h : ∀ x ∈ l, p x = true → R x (f x)) : List.Forall₂ R l (updFirst p f l) := by
  induction l with
  | nil => exact .nil
  | cons y ys ih =>
    have hys : ∀ l : List α, List.Forall₂ R l l := fun l => by
      induction l with
      | nil => exact .nil
      | cons z zs ih => exact .cons (hr z) ih
    by_cases hy : p y = true
    · simpa [updFirst, hy] using And.intro (h y (by simp) hy) (hys ys)
    · simp only [Bool.not_eq_true] at hy
      simpa [updFirst, hy] using And.intro (hr y) (ih fun x hx => h x (by simp [hx]))

/-! ### dropFirst -/

theorem dropFirst_sublist {α : Type} (p : α → Bool) (l : List α) : (dropFirst p l).Sublist l := by
  induction l with
  | nil => exact .slnil
  | cons y ys ih =>
    by_cases hy : p y = true
    · simp [dropFirst, hy]
    · simp only [Bool.not_eq_true] at hy
      simpa [dropFirst, hy] using ih

theorem dropFirst_length {α : Type} {p : α → Bool} {l : List α} {x : α} (h : l.find? p = some x) :
    (dropFirst p l).length = l.length - 1 := by
  induction l with
  | nil => cases h
  | cons y ys ih =>
    by_cases hy : p y = true
    · simp [dropFirst, hy]
    · simp only [Bool.not_eq_true] at hy
      simp only [List.find?_cons, hy] at h
      have hpos : 0 < ys.length := List.length_pos_of_mem (List.mem_of_find?_eq_some h)
      simp [dropFirst, hy, ih h]
      omega

/-- Every member but the one removed stays. -/
theorem mem_dropFirst {α : Type} {p : α → Bool} {l : List α} {x y : α} (h : l.find? p = some x)
    (hy : y ∈ l) (hne : y ≠ x) : y ∈ dropFirst p l := by
  induction l with
  | nil => cases hy
  | cons z zs ih =>
    by_cases hz : p z = true
    · simp only [List.find?_cons, hz] at h
      cases h
      simpa [dropFirst, hz, hne] using hy
    · simp only [Bool.not_eq_true] at hz
      simp only [List.find?_cons, hz] at h
      rcases List.mem_cons.mp hy with rfl | hy
      · simp [dropFirst, hz]
      · simp [dropFirst, hz, ih h hy]

/-! ### Sets kept in order -/

theorem Cause.code_injective {c d : Cause} (h : c.code = d.code) : c = d := by
  cases c <;> cases d <;> first | rfl | cases h

@[simp] theorem mem_insertCause {c d : Cause} {l : List Cause} :
    d ∈ insertCause c l ↔ d = c ∨ d ∈ l := by
  induction l with
  | nil => simp [insertCause]
  | cons e es ih =>
    simp only [insertCause]
    split
    · simp
    · split
      · rename_i h; subst h; simp
      · simp [ih]; tauto

@[simp] theorem mem_insertInput {k j : PermId} {l : List PermId} :
    j ∈ insertInput k l ↔ j = k ∨ j ∈ l := by
  induction l with
  | nil => simp [insertInput]
  | cons e es ih =>
    simp only [insertInput]
    split
    · simp
    · split
      · rename_i h; subst h; simp
      · simp [ih]; tauto

@[simp] theorem insertRecipe_length (r : Recipe) (l : List Recipe) :
    (insertRecipe r l).length = l.length + 1 := by
  induction l with
  | nil => rfl
  | cons e es ih =>
    simp only [insertRecipe]
    split <;> simp [ih]

@[simp] theorem mem_insertRecipe {r x : Recipe} {l : List Recipe} :
    x ∈ insertRecipe r l ↔ x = r ∨ x ∈ l := by
  induction l with
  | nil => simp [insertRecipe]
  | cons e es ih =>
    simp only [insertRecipe]
    split
    · simp
    · simp [ih]; tauto

/-- A new code takes its place in code order. -/
theorem insertRecipe_pairwise {r : Recipe} {l : List Recipe}
    (h : (l.map (·.code)).Pairwise (· < ·)) (hr : ∀ x ∈ l, x.code ≠ r.code) :
    ((insertRecipe r l).map (·.code)).Pairwise (· < ·) := by
  induction l with
  | nil => simp [insertRecipe]
  | cons e es ih =>
    simp only [List.map_cons, List.pairwise_cons, List.mem_map, forall_exists_index, and_imp,
      forall_apply_eq_imp_iff₂] at h
    simp only [insertRecipe]
    split
    · rename_i hlt
      simp only [List.map_cons, List.pairwise_cons, List.mem_cons, List.mem_map, forall_eq_or_imp,
        forall_exists_index, and_imp, forall_apply_eq_imp_iff₂]
      exact ⟨⟨hlt, fun x hx => lt_trans hlt (h.1 x hx)⟩, h.1, h.2⟩
    · rename_i hge
      have hne := hr e (by simp)
      simp only [List.map_cons, List.pairwise_cons, List.mem_map, mem_insertRecipe,
        forall_exists_index, and_imp, forall_apply_eq_imp_iff₂]
      refine ⟨fun x hx => ?_, ih h.2 fun x hx => hr x (by simp [hx])⟩
      rcases hx with rfl | hx
      · omega
      · exact h.1 x hx

/-! ### Orders the manual leaves open -/

theorem insertByRank_perm {α : Type} (rank : Nat → Nat) (x : α × Nat) (l : List (α × Nat)) :
    (insertByRank rank x l).Perm (x :: l) := by
  induction l with
  | nil => exact .refl _
  | cons y ys ih =>
    simp only [insertByRank]
    split
    · exact (ih.cons y).trans (.swap x y ys)
    · exact .refl _

/-- A free order is an order of the same members. -/
theorem freeOrder_perm {α : Type} (n : Nat) (l : List α) : (freeOrder n l).Perm l := by
  have h : ∀ (xs acc : List (α × Nat)),
      (xs.foldl (fun acc x => insertByRank (Config.rank n) x acc) acc).Perm (xs ++ acc) := by
    intro xs
    induction xs with
    | nil => exact fun _ => .refl _
    | cons x xs ih =>
      intro acc
      exact (ih _).trans (((insertByRank_perm _ x acc).append_left xs).trans List.perm_middle)
  have := (h l.zipIdx []).map Prod.fst
  rw [List.append_nil] at this
  have hz : l.zipIdx.map Prod.fst = l := by simp
  rw [hz] at this
  exact this

@[simp] theorem mem_freeOrder {α : Type} {n : Nat} {l : List α} {x : α} : x ∈ freeOrder n l ↔ x ∈ l :=
  (freeOrder_perm n l).mem_iff

/-! ### Runs over a list -/

/-- What every run of the operation keeps, the whole run keeps. -/
theorem State.forAll_keeps {α : Type} {P : State → Prop} {l : List α} {f : α → State → State} {s : State}
    (hs : P s) (h : ∀ x ∈ l, ∀ t, P t → P (f x t)) : P (State.forAll l f s) := by
  induction l generalizing s with
  | nil => exact hs
  | cons x xs ih => exact ih (h x (by simp) s hs) fun y hy => h y (by simp [hy])

/-- The same in a free order, for what does not read the counter of choices. -/
theorem State.forAllFree_keeps {α : Type} {P : State → Prop} {l : List α} {f : α → State → State}
    {s : State} (hs : P { s with choices := s.choices + 1 })
    (h : ∀ x ∈ l, ∀ t, P t → P (f x t)) : P (State.forAllFree l f s) :=
  State.forAll_keeps hs fun x hx => h x (mem_freeOrder.mp hx)

@[simp] theorem State.forAll_nil {α : Type} (f : α → State → State) (s : State) :
    State.forAll [] f s = s := rfl

@[simp] theorem State.forAll_cons {α : Type} (x : α) (xs : List α) (f : α → State → State) (s : State) :
    State.forAll (x :: xs) f s = State.forAll xs f (f x s) := rfl

@[simp] theorem State.forAllFree_nil {α : Type} (f : α → State → State) (s : State) :
    State.forAllFree [] f s = { s with choices := s.choices + 1 } := rfl

end Sys2Proof.Machine
end

