-- ==== Sys2Proof/Laws/State.lean ====
section
/-! SUPPORT. One lemma for each field and each update of the state: what an update of one record leaves, and
what it writes. No later proof unfolds a record update. -/

namespace Sys2Proof.Machine

/-! ### modArm -/

@[simp] theorem State.modArm_powered (a : ArmId) (f : Arm → Arm) (s : State) : (s.modArm a f).powered = s.powered := rfl
@[simp] theorem State.modArm_loads (a : ArmId) (f : Arm → Arm) (s : State) : (s.modArm a f).loads = s.loads := rfl
@[simp] theorem State.modArm_recipes (a : ArmId) (f : Arm → Arm) (s : State) : (s.modArm a f).recipes = s.recipes := rfl
@[simp] theorem State.modArm_lanes (a : ArmId) (f : Arm → Arm) (s : State) : (s.modArm a f).lanes = s.lanes := rfl
@[simp] theorem State.modArm_metrology (a : ArmId) (f : Arm → Arm) (s : State) : (s.modArm a f).metrology = s.metrology := rfl
@[simp] theorem State.modArm_meters (a : ArmId) (f : Arm → Arm) (s : State) : (s.modArm a f).meters = s.meters := rfl
@[simp] theorem State.modArm_injectors (a : ArmId) (f : Arm → Arm) (s : State) : (s.modArm a f).injectors = s.injectors := rfl
@[simp] theorem State.modArm_header (a : ArmId) (f : Arm → Arm) (s : State) : (s.modArm a f).header = s.header := rfl
@[simp] theorem State.modArm_causes (a : ArmId) (f : Arm → Arm) (s : State) : (s.modArm a f).causes = s.causes := rfl
@[simp] theorem State.modArm_attention (a : ArmId) (f : Arm → Arm) (s : State) : (s.modArm a f).attention = s.attention := rfl
@[simp] theorem State.modArm_link (a : ArmId) (f : Arm → Arm) (s : State) : (s.modArm a f).link = s.link := rfl
@[simp] theorem State.modArm_calibration (a : ArmId) (f : Arm → Arm) (s : State) : (s.modArm a f).calibration = s.calibration := rfl
@[simp] theorem State.modArm_choices (a : ArmId) (f : Arm → Arm) (s : State) : (s.modArm a f).choices = s.choices := rfl
@[simp] theorem State.modArm_pending (a : ArmId) (f : Arm → Arm) (s : State) : (s.modArm a f).pending = s.pending := rfl
@[simp] theorem State.modArm_lane (a : ArmId) (f : Arm → Arm) (s : State) (i : LaneId) : (s.modArm a f).lane i = s.lane i := rfl
@[simp] theorem State.modArm_meter (a : ArmId) (f : Arm → Arm) (s : State) (i : MeterId) : (s.modArm a f).meter i = s.meter i := rfl
@[simp] theorem State.modArm_injector (a : ArmId) (f : Arm → Arm) (s : State) (i : InjId) : (s.modArm a f).injector i = s.injector i := rfl
@[simp] theorem State.modArm_head (a : ArmId) (f : Arm → Arm) (s : State) (i : ArmId) : (s.modArm a f).head i = s.head i := rfl
@[simp] theorem State.modArm_running (a : ArmId) (f : Arm → Arm) (s : State) (i : ArmId) : (s.modArm a f).running i = s.running i := rfl
@[simp] theorem State.modArm_armQueue (a : ArmId) (f : Arm → Arm) (s : State) (i : ArmId) : (s.modArm a f).armQueue i = s.armQueue i := rfl
@[simp] theorem State.modArm_load (a : ArmId) (f : Arm → Arm) (s : State) (i : Nat) : (s.modArm a f).load i = s.load i := rfl
@[simp] theorem State.modArm_recipe (a : ArmId) (f : Arm → Arm) (s : State) (i : Nat) : (s.modArm a f).recipe i = s.recipe i := rfl

/-! ### modFlow -/

@[simp] theorem State.modFlow_powered (a : ArmId) (f : FlowState → FlowState) (s : State) : (s.modFlow a f).powered = s.powered := rfl
@[simp] theorem State.modFlow_loads (a : ArmId) (f : FlowState → FlowState) (s : State) : (s.modFlow a f).loads = s.loads := rfl
@[simp] theorem State.modFlow_recipes (a : ArmId) (f : FlowState → FlowState) (s : State) : (s.modFlow a f).recipes = s.recipes := rfl
@[simp] theorem State.modFlow_lanes (a : ArmId) (f : FlowState → FlowState) (s : State) : (s.modFlow a f).lanes = s.lanes := rfl
@[simp] theorem State.modFlow_metrology (a : ArmId) (f : FlowState → FlowState) (s : State) : (s.modFlow a f).metrology = s.metrology := rfl
@[simp] theorem State.modFlow_meters (a : ArmId) (f : FlowState → FlowState) (s : State) : (s.modFlow a f).meters = s.meters := rfl
@[simp] theorem State.modFlow_injectors (a : ArmId) (f : FlowState → FlowState) (s : State) : (s.modFlow a f).injectors = s.injectors := rfl
@[simp] theorem State.modFlow_header (a : ArmId) (f : FlowState → FlowState) (s : State) : (s.modFlow a f).header = s.header := rfl
@[simp] theorem State.modFlow_causes (a : ArmId) (f : FlowState → FlowState) (s : State) : (s.modFlow a f).causes = s.causes := rfl
@[simp] theorem State.modFlow_attention (a : ArmId) (f : FlowState → FlowState) (s : State) : (s.modFlow a f).attention = s.attention := rfl
@[simp] theorem State.modFlow_link (a : ArmId) (f : FlowState → FlowState) (s : State) : (s.modFlow a f).link = s.link := rfl
@[simp] theorem State.modFlow_calibration (a : ArmId) (f : FlowState → FlowState) (s : State) : (s.modFlow a f).calibration = s.calibration := rfl
@[simp] theorem State.modFlow_choices (a : ArmId) (f : FlowState → FlowState) (s : State) : (s.modFlow a f).choices = s.choices := rfl
@[simp] theorem State.modFlow_pending (a : ArmId) (f : FlowState → FlowState) (s : State) : (s.modFlow a f).pending = s.pending := rfl
@[simp] theorem State.modFlow_lane (a : ArmId) (f : FlowState → FlowState) (s : State) (i : LaneId) : (s.modFlow a f).lane i = s.lane i := rfl
@[simp] theorem State.modFlow_meter (a : ArmId) (f : FlowState → FlowState) (s : State) (i : MeterId) : (s.modFlow a f).meter i = s.meter i := rfl
@[simp] theorem State.modFlow_injector (a : ArmId) (f : FlowState → FlowState) (s : State) (i : InjId) : (s.modFlow a f).injector i = s.injector i := rfl
@[simp] theorem State.modFlow_head (a : ArmId) (f : FlowState → FlowState) (s : State) (i : ArmId) : (s.modFlow a f).head i = s.head i := rfl
@[simp] theorem State.modFlow_running (a : ArmId) (f : FlowState → FlowState) (s : State) (i : ArmId) : (s.modFlow a f).running i = s.running i := rfl
@[simp] theorem State.modFlow_armQueue (a : ArmId) (f : FlowState → FlowState) (s : State) (i : ArmId) : (s.modFlow a f).armQueue i = s.armQueue i := rfl
@[simp] theorem State.modFlow_load (a : ArmId) (f : FlowState → FlowState) (s : State) (i : Nat) : (s.modFlow a f).load i = s.load i := rfl
@[simp] theorem State.modFlow_recipe (a : ArmId) (f : FlowState → FlowState) (s : State) (i : Nat) : (s.modFlow a f).recipe i = s.recipe i := rfl

/-! ### zeroStray -/

@[simp] theorem State.zeroStray_powered (a : ArmId) (s : State) : (s.zeroStray a).powered = s.powered := rfl
@[simp] theorem State.zeroStray_loads (a : ArmId) (s : State) : (s.zeroStray a).loads = s.loads := rfl
@[simp] theorem State.zeroStray_recipes (a : ArmId) (s : State) : (s.zeroStray a).recipes = s.recipes := rfl
@[simp] theorem State.zeroStray_lanes (a : ArmId) (s : State) : (s.zeroStray a).lanes = s.lanes := rfl
@[simp] theorem State.zeroStray_metrology (a : ArmId) (s : State) : (s.zeroStray a).metrology = s.metrology := rfl
@[simp] theorem State.zeroStray_meters (a : ArmId) (s : State) : (s.zeroStray a).meters = s.meters := rfl
@[simp] theorem State.zeroStray_injectors (a : ArmId) (s : State) : (s.zeroStray a).injectors = s.injectors := rfl
@[simp] theorem State.zeroStray_header (a : ArmId) (s : State) : (s.zeroStray a).header = s.header := rfl
@[simp] theorem State.zeroStray_causes (a : ArmId) (s : State) : (s.zeroStray a).causes = s.causes := rfl
@[simp] theorem State.zeroStray_attention (a : ArmId) (s : State) : (s.zeroStray a).attention = s.attention := rfl
@[simp] theorem State.zeroStray_link (a : ArmId) (s : State) : (s.zeroStray a).link = s.link := rfl
@[simp] theorem State.zeroStray_calibration (a : ArmId) (s : State) : (s.zeroStray a).calibration = s.calibration := rfl
@[simp] theorem State.zeroStray_choices (a : ArmId) (s : State) : (s.zeroStray a).choices = s.choices := rfl
@[simp] theorem State.zeroStray_pending (a : ArmId) (s : State) : (s.zeroStray a).pending = s.pending := rfl
@[simp] theorem State.zeroStray_lane (a : ArmId) (s : State) (i : LaneId) : (s.zeroStray a).lane i = s.lane i := rfl
@[simp] theorem State.zeroStray_meter (a : ArmId) (s : State) (i : MeterId) : (s.zeroStray a).meter i = s.meter i := rfl
@[simp] theorem State.zeroStray_injector (a : ArmId) (s : State) (i : InjId) : (s.zeroStray a).injector i = s.injector i := rfl
@[simp] theorem State.zeroStray_head (a : ArmId) (s : State) (i : ArmId) : (s.zeroStray a).head i = s.head i := rfl
@[simp] theorem State.zeroStray_running (a : ArmId) (s : State) (i : ArmId) : (s.zeroStray a).running i = s.running i := rfl
@[simp] theorem State.zeroStray_armQueue (a : ArmId) (s : State) (i : ArmId) : (s.zeroStray a).armQueue i = s.armQueue i := rfl
@[simp] theorem State.zeroStray_load (a : ArmId) (s : State) (i : Nat) : (s.zeroStray a).load i = s.load i := rfl
@[simp] theorem State.zeroStray_recipe (a : ArmId) (s : State) (i : Nat) : (s.zeroStray a).recipe i = s.recipe i := rfl

/-! ### modLane -/

@[simp] theorem State.modLane_powered (n : LaneId) (f : Lane → Lane) (s : State) : (s.modLane n f).powered = s.powered := rfl
@[simp] theorem State.modLane_loads (n : LaneId) (f : Lane → Lane) (s : State) : (s.modLane n f).loads = s.loads := rfl
@[simp] theorem State.modLane_recipes (n : LaneId) (f : Lane → Lane) (s : State) : (s.modLane n f).recipes = s.recipes := rfl
@[simp] theorem State.modLane_arms (n : LaneId) (f : Lane → Lane) (s : State) : (s.modLane n f).arms = s.arms := rfl
@[simp] theorem State.modLane_metrology (n : LaneId) (f : Lane → Lane) (s : State) : (s.modLane n f).metrology = s.metrology := rfl
@[simp] theorem State.modLane_meters (n : LaneId) (f : Lane → Lane) (s : State) : (s.modLane n f).meters = s.meters := rfl
@[simp] theorem State.modLane_injectors (n : LaneId) (f : Lane → Lane) (s : State) : (s.modLane n f).injectors = s.injectors := rfl
@[simp] theorem State.modLane_header (n : LaneId) (f : Lane → Lane) (s : State) : (s.modLane n f).header = s.header := rfl
@[simp] theorem State.modLane_causes (n : LaneId) (f : Lane → Lane) (s : State) : (s.modLane n f).causes = s.causes := rfl
@[simp] theorem State.modLane_attention (n : LaneId) (f : Lane → Lane) (s : State) : (s.modLane n f).attention = s.attention := rfl
@[simp] theorem State.modLane_link (n : LaneId) (f : Lane → Lane) (s : State) : (s.modLane n f).link = s.link := rfl
@[simp] theorem State.modLane_calibration (n : LaneId) (f : Lane → Lane) (s : State) : (s.modLane n f).calibration = s.calibration := rfl
@[simp] theorem State.modLane_choices (n : LaneId) (f : Lane → Lane) (s : State) : (s.modLane n f).choices = s.choices := rfl
@[simp] theorem State.modLane_pending (n : LaneId) (f : Lane → Lane) (s : State) : (s.modLane n f).pending = s.pending := rfl
@[simp] theorem State.modLane_arm (n : LaneId) (f : Lane → Lane) (s : State) (i : ArmId) : (s.modLane n f).arm i = s.arm i := rfl
@[simp] theorem State.modLane_meter (n : LaneId) (f : Lane → Lane) (s : State) (i : MeterId) : (s.modLane n f).meter i = s.meter i := rfl
@[simp] theorem State.modLane_injector (n : LaneId) (f : Lane → Lane) (s : State) (i : InjId) : (s.modLane n f).injector i = s.injector i := rfl
@[simp] theorem State.modLane_head (n : LaneId) (f : Lane → Lane) (s : State) (i : ArmId) : (s.modLane n f).head i = s.head i := rfl
@[simp] theorem State.modLane_running (n : LaneId) (f : Lane → Lane) (s : State) (i : ArmId) : (s.modLane n f).running i = s.running i := rfl
@[simp] theorem State.modLane_armQueue (n : LaneId) (f : Lane → Lane) (s : State) (i : ArmId) : (s.modLane n f).armQueue i = s.armQueue i := rfl
@[simp] theorem State.modLane_load (n : LaneId) (f : Lane → Lane) (s : State) (i : Nat) : (s.modLane n f).load i = s.load i := rfl
@[simp] theorem State.modLane_recipe (n : LaneId) (f : Lane → Lane) (s : State) (i : Nat) : (s.modLane n f).recipe i = s.recipe i := rfl
@[simp] theorem State.modLane_defn (n : LaneId) (f : Lane → Lane) (s : State) (i : ArmId) : (s.modLane n f).defn i = s.defn i := rfl

/-! ### modMeter -/

@[simp] theorem State.modMeter_powered (m : MeterId) (f : Meter → Meter) (s : State) : (s.modMeter m f).powered = s.powered := rfl
@[simp] theorem State.modMeter_loads (m : MeterId) (f : Meter → Meter) (s : State) : (s.modMeter m f).loads = s.loads := rfl
@[simp] theorem State.modMeter_recipes (m : MeterId) (f : Meter → Meter) (s : State) : (s.modMeter m f).recipes = s.recipes := rfl
@[simp] theorem State.modMeter_arms (m : MeterId) (f : Meter → Meter) (s : State) : (s.modMeter m f).arms = s.arms := rfl
@[simp] theorem State.modMeter_lanes (m : MeterId) (f : Meter → Meter) (s : State) : (s.modMeter m f).lanes = s.lanes := rfl
@[simp] theorem State.modMeter_metrology (m : MeterId) (f : Meter → Meter) (s : State) : (s.modMeter m f).metrology = s.metrology := rfl
@[simp] theorem State.modMeter_injectors (m : MeterId) (f : Meter → Meter) (s : State) : (s.modMeter m f).injectors = s.injectors := rfl
@[simp] theorem State.modMeter_header (m : MeterId) (f : Meter → Meter) (s : State) : (s.modMeter m f).header = s.header := rfl
@[simp] theorem State.modMeter_causes (m : MeterId) (f : Meter → Meter) (s : State) : (s.modMeter m f).causes = s.causes := rfl
@[simp] theorem State.modMeter_attention (m : MeterId) (f : Meter → Meter) (s : State) : (s.modMeter m f).attention = s.attention := rfl
@[simp] theorem State.modMeter_link (m : MeterId) (f : Meter → Meter) (s : State) : (s.modMeter m f).link = s.link := rfl
@[simp] theorem State.modMeter_calibration (m : MeterId) (f : Meter → Meter) (s : State) : (s.modMeter m f).calibration = s.calibration := rfl
@[simp] theorem State.modMeter_choices (m : MeterId) (f : Meter → Meter) (s : State) : (s.modMeter m f).choices = s.choices := rfl
@[simp] theorem State.modMeter_pending (m : MeterId) (f : Meter → Meter) (s : State) : (s.modMeter m f).pending = s.pending := rfl
@[simp] theorem State.modMeter_arm (m : MeterId) (f : Meter → Meter) (s : State) (i : ArmId) : (s.modMeter m f).arm i = s.arm i := rfl
@[simp] theorem State.modMeter_lane (m : MeterId) (f : Meter → Meter) (s : State) (i : LaneId) : (s.modMeter m f).lane i = s.lane i := rfl
@[simp] theorem State.modMeter_injector (m : MeterId) (f : Meter → Meter) (s : State) (i : InjId) : (s.modMeter m f).injector i = s.injector i := rfl
@[simp] theorem State.modMeter_head (m : MeterId) (f : Meter → Meter) (s : State) (i : ArmId) : (s.modMeter m f).head i = s.head i := rfl
@[simp] theorem State.modMeter_running (m : MeterId) (f : Meter → Meter) (s : State) (i : ArmId) : (s.modMeter m f).running i = s.running i := rfl
@[simp] theorem State.modMeter_armQueue (m : MeterId) (f : Meter → Meter) (s : State) (i : ArmId) : (s.modMeter m f).armQueue i = s.armQueue i := rfl
@[simp] theorem State.modMeter_load (m : MeterId) (f : Meter → Meter) (s : State) (i : Nat) : (s.modMeter m f).load i = s.load i := rfl
@[simp] theorem State.modMeter_recipe (m : MeterId) (f : Meter → Meter) (s : State) (i : Nat) : (s.modMeter m f).recipe i = s.recipe i := rfl
@[simp] theorem State.modMeter_defn (m : MeterId) (f : Meter → Meter) (s : State) (i : ArmId) : (s.modMeter m f).defn i = s.defn i := rfl

/-! ### modInjector -/

@[simp] theorem State.modInjector_powered (j : InjId) (f : Injector → Injector) (s : State) : (s.modInjector j f).powered = s.powered := rfl
@[simp] theorem State.modInjector_loads (j : InjId) (f : Injector → Injector) (s : State) : (s.modInjector j f).loads = s.loads := rfl
@[simp] theorem State.modInjector_recipes (j : InjId) (f : Injector → Injector) (s : State) : (s.modInjector j f).recipes = s.recipes := rfl
@[simp] theorem State.modInjector_arms (j : InjId) (f : Injector → Injector) (s : State) : (s.modInjector j f).arms = s.arms := rfl
@[simp] theorem State.modInjector_lanes (j : InjId) (f : Injector → Injector) (s : State) : (s.modInjector j f).lanes = s.lanes := rfl
@[simp] theorem State.modInjector_metrology (j : InjId) (f : Injector → Injector) (s : State) : (s.modInjector j f).metrology = s.metrology := rfl
@[simp] theorem State.modInjector_meters (j : InjId) (f : Injector → Injector) (s : State) : (s.modInjector j f).meters = s.meters := rfl
@[simp] theorem State.modInjector_header (j : InjId) (f : Injector → Injector) (s : State) : (s.modInjector j f).header = s.header := rfl
@[simp] theorem State.modInjector_causes (j : InjId) (f : Injector → Injector) (s : State) : (s.modInjector j f).causes = s.causes := rfl
@[simp] theorem State.modInjector_attention (j : InjId) (f : Injector → Injector) (s : State) : (s.modInjector j f).attention = s.attention := rfl
@[simp] theorem State.modInjector_link (j : InjId) (f : Injector → Injector) (s : State) : (s.modInjector j f).link = s.link := rfl
@[simp] theorem State.modInjector_calibration (j : InjId) (f : Injector → Injector) (s : State) : (s.modInjector j f).calibration = s.calibration := rfl
@[simp] theorem State.modInjector_choices (j : InjId) (f : Injector → Injector) (s : State) : (s.modInjector j f).choices = s.choices := rfl
@[simp] theorem State.modInjector_pending (j : InjId) (f : Injector → Injector) (s : State) : (s.modInjector j f).pending = s.pending := rfl
@[simp] theorem State.modInjector_arm (j : InjId) (f : Injector → Injector) (s : State) (i : ArmId) : (s.modInjector j f).arm i = s.arm i := rfl
@[simp] theorem State.modInjector_lane (j : InjId) (f : Injector → Injector) (s : State) (i : LaneId) : (s.modInjector j f).lane i = s.lane i := rfl
@[simp] theorem State.modInjector_meter (j : InjId) (f : Injector → Injector) (s : State) (i : MeterId) : (s.modInjector j f).meter i = s.meter i := rfl
@[simp] theorem State.modInjector_head (j : InjId) (f : Injector → Injector) (s : State) (i : ArmId) : (s.modInjector j f).head i = s.head i := rfl
@[simp] theorem State.modInjector_running (j : InjId) (f : Injector → Injector) (s : State) (i : ArmId) : (s.modInjector j f).running i = s.running i := rfl
@[simp] theorem State.modInjector_armQueue (j : InjId) (f : Injector → Injector) (s : State) (i : ArmId) : (s.modInjector j f).armQueue i = s.armQueue i := rfl
@[simp] theorem State.modInjector_load (j : InjId) (f : Injector → Injector) (s : State) (i : Nat) : (s.modInjector j f).load i = s.load i := rfl
@[simp] theorem State.modInjector_recipe (j : InjId) (f : Injector → Injector) (s : State) (i : Nat) : (s.modInjector j f).recipe i = s.recipe i := rfl
@[simp] theorem State.modInjector_defn (j : InjId) (f : Injector → Injector) (s : State) (i : ArmId) : (s.modInjector j f).defn i = s.defn i := rfl

/-! ### modHeader -/

@[simp] theorem State.modHeader_powered (f : Header → Header) (s : State) : (s.modHeader f).powered = s.powered := rfl
@[simp] theorem State.modHeader_loads (f : Header → Header) (s : State) : (s.modHeader f).loads = s.loads := rfl
@[simp] theorem State.modHeader_recipes (f : Header → Header) (s : State) : (s.modHeader f).recipes = s.recipes := rfl
@[simp] theorem State.modHeader_arms (f : Header → Header) (s : State) : (s.modHeader f).arms = s.arms := rfl
@[simp] theorem State.modHeader_lanes (f : Header → Header) (s : State) : (s.modHeader f).lanes = s.lanes := rfl
@[simp] theorem State.modHeader_metrology (f : Header → Header) (s : State) : (s.modHeader f).metrology = s.metrology := rfl
@[simp] theorem State.modHeader_meters (f : Header → Header) (s : State) : (s.modHeader f).meters = s.meters := rfl
@[simp] theorem State.modHeader_injectors (f : Header → Header) (s : State) : (s.modHeader f).injectors = s.injectors := rfl
@[simp] theorem State.modHeader_causes (f : Header → Header) (s : State) : (s.modHeader f).causes = s.causes := rfl
@[simp] theorem State.modHeader_attention (f : Header → Header) (s : State) : (s.modHeader f).attention = s.attention := rfl
@[simp] theorem State.modHeader_link (f : Header → Header) (s : State) : (s.modHeader f).link = s.link := rfl
@[simp] theorem State.modHeader_calibration (f : Header → Header) (s : State) : (s.modHeader f).calibration = s.calibration := rfl
@[simp] theorem State.modHeader_choices (f : Header → Header) (s : State) : (s.modHeader f).choices = s.choices := rfl
@[simp] theorem State.modHeader_pending (f : Header → Header) (s : State) : (s.modHeader f).pending = s.pending := rfl
@[simp] theorem State.modHeader_arm (f : Header → Header) (s : State) (i : ArmId) : (s.modHeader f).arm i = s.arm i := rfl
@[simp] theorem State.modHeader_lane (f : Header → Header) (s : State) (i : LaneId) : (s.modHeader f).lane i = s.lane i := rfl
@[simp] theorem State.modHeader_meter (f : Header → Header) (s : State) (i : MeterId) : (s.modHeader f).meter i = s.meter i := rfl
@[simp] theorem State.modHeader_injector (f : Header → Header) (s : State) (i : InjId) : (s.modHeader f).injector i = s.injector i := rfl
@[simp] theorem State.modHeader_head (f : Header → Header) (s : State) (i : ArmId) : (s.modHeader f).head i = s.head i := rfl
@[simp] theorem State.modHeader_running (f : Header → Header) (s : State) (i : ArmId) : (s.modHeader f).running i = s.running i := rfl
@[simp] theorem State.modHeader_armQueue (f : Header → Header) (s : State) (i : ArmId) : (s.modHeader f).armQueue i = s.armQueue i := rfl
@[simp] theorem State.modHeader_load (f : Header → Header) (s : State) (i : Nat) : (s.modHeader f).load i = s.load i := rfl
@[simp] theorem State.modHeader_recipe (f : Header → Header) (s : State) (i : Nat) : (s.modHeader f).recipe i = s.recipe i := rfl
@[simp] theorem State.modHeader_defn (f : Header → Header) (s : State) (i : ArmId) : (s.modHeader f).defn i = s.defn i := rfl

/-! ### modLink -/

@[simp] theorem State.modLink_powered (f : Link → Link) (s : State) : (s.modLink f).powered = s.powered := rfl
@[simp] theorem State.modLink_loads (f : Link → Link) (s : State) : (s.modLink f).loads = s.loads := rfl
@[simp] theorem State.modLink_recipes (f : Link → Link) (s : State) : (s.modLink f).recipes = s.recipes := rfl
@[simp] theorem State.modLink_arms (f : Link → Link) (s : State) : (s.modLink f).arms = s.arms := rfl
@[simp] theorem State.modLink_lanes (f : Link → Link) (s : State) : (s.modLink f).lanes = s.lanes := rfl
@[simp] theorem State.modLink_metrology (f : Link → Link) (s : State) : (s.modLink f).metrology = s.metrology := rfl
@[simp] theorem State.modLink_meters (f : Link → Link) (s : State) : (s.modLink f).meters = s.meters := rfl
@[simp] theorem State.modLink_injectors (f : Link → Link) (s : State) : (s.modLink f).injectors = s.injectors := rfl
@[simp] theorem State.modLink_header (f : Link → Link) (s : State) : (s.modLink f).header = s.header := rfl
@[simp] theorem State.modLink_causes (f : Link → Link) (s : State) : (s.modLink f).causes = s.causes := rfl
@[simp] theorem State.modLink_attention (f : Link → Link) (s : State) : (s.modLink f).attention = s.attention := rfl
@[simp] theorem State.modLink_calibration (f : Link → Link) (s : State) : (s.modLink f).calibration = s.calibration := rfl
@[simp] theorem State.modLink_choices (f : Link → Link) (s : State) : (s.modLink f).choices = s.choices := rfl
@[simp] theorem State.modLink_pending (f : Link → Link) (s : State) : (s.modLink f).pending = s.pending := rfl
@[simp] theorem State.modLink_arm (f : Link → Link) (s : State) (i : ArmId) : (s.modLink f).arm i = s.arm i := rfl
@[simp] theorem State.modLink_lane (f : Link → Link) (s : State) (i : LaneId) : (s.modLink f).lane i = s.lane i := rfl
@[simp] theorem State.modLink_meter (f : Link → Link) (s : State) (i : MeterId) : (s.modLink f).meter i = s.meter i := rfl
@[simp] theorem State.modLink_injector (f : Link → Link) (s : State) (i : InjId) : (s.modLink f).injector i = s.injector i := rfl
@[simp] theorem State.modLink_head (f : Link → Link) (s : State) (i : ArmId) : (s.modLink f).head i = s.head i := rfl
@[simp] theorem State.modLink_running (f : Link → Link) (s : State) (i : ArmId) : (s.modLink f).running i = s.running i := rfl
@[simp] theorem State.modLink_armQueue (f : Link → Link) (s : State) (i : ArmId) : (s.modLink f).armQueue i = s.armQueue i := rfl
@[simp] theorem State.modLink_load (f : Link → Link) (s : State) (i : Nat) : (s.modLink f).load i = s.load i := rfl
@[simp] theorem State.modLink_recipe (f : Link → Link) (s : State) (i : Nat) : (s.modLink f).recipe i = s.recipe i := rfl
@[simp] theorem State.modLink_defn (f : Link → Link) (s : State) (i : ArmId) : (s.modLink f).defn i = s.defn i := rfl

/-! ### modHead -/

@[simp] theorem State.modHead_powered (a : ArmId) (f : Load → Load) (s : State) : (s.modHead a f).powered = s.powered := rfl
@[simp] theorem State.modHead_recipes (a : ArmId) (f : Load → Load) (s : State) : (s.modHead a f).recipes = s.recipes := rfl
@[simp] theorem State.modHead_arms (a : ArmId) (f : Load → Load) (s : State) : (s.modHead a f).arms = s.arms := rfl
@[simp] theorem State.modHead_lanes (a : ArmId) (f : Load → Load) (s : State) : (s.modHead a f).lanes = s.lanes := rfl
@[simp] theorem State.modHead_metrology (a : ArmId) (f : Load → Load) (s : State) : (s.modHead a f).metrology = s.metrology := rfl
@[simp] theorem State.modHead_meters (a : ArmId) (f : Load → Load) (s : State) : (s.modHead a f).meters = s.meters := rfl
@[simp] theorem State.modHead_injectors (a : ArmId) (f : Load → Load) (s : State) : (s.modHead a f).injectors = s.injectors := rfl
@[simp] theorem State.modHead_header (a : ArmId) (f : Load → Load) (s : State) : (s.modHead a f).header = s.header := rfl
@[simp] theorem State.modHead_causes (a : ArmId) (f : Load → Load) (s : State) : (s.modHead a f).causes = s.causes := rfl
@[simp] theorem State.modHead_attention (a : ArmId) (f : Load → Load) (s : State) : (s.modHead a f).attention = s.attention := rfl
@[simp] theorem State.modHead_link (a : ArmId) (f : Load → Load) (s : State) : (s.modHead a f).link = s.link := rfl
@[simp] theorem State.modHead_calibration (a : ArmId) (f : Load → Load) (s : State) : (s.modHead a f).calibration = s.calibration := rfl
@[simp] theorem State.modHead_choices (a : ArmId) (f : Load → Load) (s : State) : (s.modHead a f).choices = s.choices := rfl
@[simp] theorem State.modHead_pending (a : ArmId) (f : Load → Load) (s : State) : (s.modHead a f).pending = s.pending := rfl
@[simp] theorem State.modHead_arm (a : ArmId) (f : Load → Load) (s : State) (i : ArmId) : (s.modHead a f).arm i = s.arm i := rfl
@[simp] theorem State.modHead_lane (a : ArmId) (f : Load → Load) (s : State) (i : LaneId) : (s.modHead a f).lane i = s.lane i := rfl
@[simp] theorem State.modHead_meter (a : ArmId) (f : Load → Load) (s : State) (i : MeterId) : (s.modHead a f).meter i = s.meter i := rfl
@[simp] theorem State.modHead_injector (a : ArmId) (f : Load → Load) (s : State) (i : InjId) : (s.modHead a f).injector i = s.injector i := rfl
@[simp] theorem State.modHead_recipe (a : ArmId) (f : Load → Load) (s : State) (i : Nat) : (s.modHead a f).recipe i = s.recipe i := rfl
@[simp] theorem State.modHead_defn (a : ArmId) (f : Load → Load) (s : State) (i : ArmId) : (s.modHead a f).defn i = s.defn i := rfl

/-! ### modLoad -/

@[simp] theorem State.modLoad_powered (n : Nat) (f : Load → Load) (s : State) : (s.modLoad n f).powered = s.powered := rfl
@[simp] theorem State.modLoad_recipes (n : Nat) (f : Load → Load) (s : State) : (s.modLoad n f).recipes = s.recipes := rfl
@[simp] theorem State.modLoad_arms (n : Nat) (f : Load → Load) (s : State) : (s.modLoad n f).arms = s.arms := rfl
@[simp] theorem State.modLoad_lanes (n : Nat) (f : Load → Load) (s : State) : (s.modLoad n f).lanes = s.lanes := rfl
@[simp] theorem State.modLoad_metrology (n : Nat) (f : Load → Load) (s : State) : (s.modLoad n f).metrology = s.metrology := rfl
@[simp] theorem State.modLoad_meters (n : Nat) (f : Load → Load) (s : State) : (s.modLoad n f).meters = s.meters := rfl
@[simp] theorem State.modLoad_injectors (n : Nat) (f : Load → Load) (s : State) : (s.modLoad n f).injectors = s.injectors := rfl
@[simp] theorem State.modLoad_header (n : Nat) (f : Load → Load) (s : State) : (s.modLoad n f).header = s.header := rfl
@[simp] theorem State.modLoad_causes (n : Nat) (f : Load → Load) (s : State) : (s.modLoad n f).causes = s.causes := rfl
@[simp] theorem State.modLoad_attention (n : Nat) (f : Load → Load) (s : State) : (s.modLoad n f).attention = s.attention := rfl
@[simp] theorem State.modLoad_link (n : Nat) (f : Load → Load) (s : State) : (s.modLoad n f).link = s.link := rfl
@[simp] theorem State.modLoad_calibration (n : Nat) (f : Load → Load) (s : State) : (s.modLoad n f).calibration = s.calibration := rfl
@[simp] theorem State.modLoad_choices (n : Nat) (f : Load → Load) (s : State) : (s.modLoad n f).choices = s.choices := rfl
@[simp] theorem State.modLoad_pending (n : Nat) (f : Load → Load) (s : State) : (s.modLoad n f).pending = s.pending := rfl
@[simp] theorem State.modLoad_arm (n : Nat) (f : Load → Load) (s : State) (i : ArmId) : (s.modLoad n f).arm i = s.arm i := rfl
@[simp] theorem State.modLoad_lane (n : Nat) (f : Load → Load) (s : State) (i : LaneId) : (s.modLoad n f).lane i = s.lane i := rfl
@[simp] theorem State.modLoad_meter (n : Nat) (f : Load → Load) (s : State) (i : MeterId) : (s.modLoad n f).meter i = s.meter i := rfl
@[simp] theorem State.modLoad_injector (n : Nat) (f : Load → Load) (s : State) (i : InjId) : (s.modLoad n f).injector i = s.injector i := rfl
@[simp] theorem State.modLoad_recipe (n : Nat) (f : Load → Load) (s : State) (i : Nat) : (s.modLoad n f).recipe i = s.recipe i := rfl
@[simp] theorem State.modLoad_defn (n : Nat) (f : Load → Load) (s : State) (i : ArmId) : (s.modLoad n f).defn i = s.defn i := rfl

/-! ### modRecipe -/

@[simp] theorem State.modRecipe_powered (c : Nat) (f : Recipe → Recipe) (s : State) : (s.modRecipe c f).powered = s.powered := rfl
@[simp] theorem State.modRecipe_loads (c : Nat) (f : Recipe → Recipe) (s : State) : (s.modRecipe c f).loads = s.loads := rfl
@[simp] theorem State.modRecipe_arms (c : Nat) (f : Recipe → Recipe) (s : State) : (s.modRecipe c f).arms = s.arms := rfl
@[simp] theorem State.modRecipe_lanes (c : Nat) (f : Recipe → Recipe) (s : State) : (s.modRecipe c f).lanes = s.lanes := rfl
@[simp] theorem State.modRecipe_metrology (c : Nat) (f : Recipe → Recipe) (s : State) : (s.modRecipe c f).metrology = s.metrology := rfl
@[simp] theorem State.modRecipe_meters (c : Nat) (f : Recipe → Recipe) (s : State) : (s.modRecipe c f).meters = s.meters := rfl
@[simp] theorem State.modRecipe_injectors (c : Nat) (f : Recipe → Recipe) (s : State) : (s.modRecipe c f).injectors = s.injectors := rfl
@[simp] theorem State.modRecipe_header (c : Nat) (f : Recipe → Recipe) (s : State) : (s.modRecipe c f).header = s.header := rfl
@[simp] theorem State.modRecipe_causes (c : Nat) (f : Recipe → Recipe) (s : State) : (s.modRecipe c f).causes = s.causes := rfl
@[simp] theorem State.modRecipe_attention (c : Nat) (f : Recipe → Recipe) (s : State) : (s.modRecipe c f).attention = s.attention := rfl
@[simp] theorem State.modRecipe_link (c : Nat) (f : Recipe → Recipe) (s : State) : (s.modRecipe c f).link = s.link := rfl
@[simp] theorem State.modRecipe_calibration (c : Nat) (f : Recipe → Recipe) (s : State) : (s.modRecipe c f).calibration = s.calibration := rfl
@[simp] theorem State.modRecipe_choices (c : Nat) (f : Recipe → Recipe) (s : State) : (s.modRecipe c f).choices = s.choices := rfl
@[simp] theorem State.modRecipe_pending (c : Nat) (f : Recipe → Recipe) (s : State) : (s.modRecipe c f).pending = s.pending := rfl
@[simp] theorem State.modRecipe_arm (c : Nat) (f : Recipe → Recipe) (s : State) (i : ArmId) : (s.modRecipe c f).arm i = s.arm i := rfl
@[simp] theorem State.modRecipe_lane (c : Nat) (f : Recipe → Recipe) (s : State) (i : LaneId) : (s.modRecipe c f).lane i = s.lane i := rfl
@[simp] theorem State.modRecipe_meter (c : Nat) (f : Recipe → Recipe) (s : State) (i : MeterId) : (s.modRecipe c f).meter i = s.meter i := rfl
@[simp] theorem State.modRecipe_injector (c : Nat) (f : Recipe → Recipe) (s : State) (i : InjId) : (s.modRecipe c f).injector i = s.injector i := rfl
@[simp] theorem State.modRecipe_head (c : Nat) (f : Recipe → Recipe) (s : State) (i : ArmId) : (s.modRecipe c f).head i = s.head i := rfl
@[simp] theorem State.modRecipe_running (c : Nat) (f : Recipe → Recipe) (s : State) (i : ArmId) : (s.modRecipe c f).running i = s.running i := rfl
@[simp] theorem State.modRecipe_armQueue (c : Nat) (f : Recipe → Recipe) (s : State) (i : ArmId) : (s.modRecipe c f).armQueue i = s.armQueue i := rfl
@[simp] theorem State.modRecipe_load (c : Nat) (f : Recipe → Recipe) (s : State) (i : Nat) : (s.modRecipe c f).load i = s.load i := rfl
@[simp] theorem State.modRecipe_defn (c : Nat) (f : Recipe → Recipe) (s : State) (i : ArmId) : (s.modRecipe c f).defn i = s.defn i := rfl

/-! ### raiseReference -/

@[simp] theorem State.raiseReference_powered (c : Nat) (s : State) : (s.raiseReference c).powered = s.powered := rfl
@[simp] theorem State.raiseReference_loads (c : Nat) (s : State) : (s.raiseReference c).loads = s.loads := rfl
@[simp] theorem State.raiseReference_arms (c : Nat) (s : State) : (s.raiseReference c).arms = s.arms := rfl
@[simp] theorem State.raiseReference_lanes (c : Nat) (s : State) : (s.raiseReference c).lanes = s.lanes := rfl
@[simp] theorem State.raiseReference_metrology (c : Nat) (s : State) : (s.raiseReference c).metrology = s.metrology := rfl
@[simp] theorem State.raiseReference_meters (c : Nat) (s : State) : (s.raiseReference c).meters = s.meters := rfl
@[simp] theorem State.raiseReference_injectors (c : Nat) (s : State) : (s.raiseReference c).injectors = s.injectors := rfl
@[simp] theorem State.raiseReference_header (c : Nat) (s : State) : (s.raiseReference c).header = s.header := rfl
@[simp] theorem State.raiseReference_causes (c : Nat) (s : State) : (s.raiseReference c).causes = s.causes := rfl
@[simp] theorem State.raiseReference_attention (c : Nat) (s : State) : (s.raiseReference c).attention = s.attention := rfl
@[simp] theorem State.raiseReference_link (c : Nat) (s : State) : (s.raiseReference c).link = s.link := rfl
@[simp] theorem State.raiseReference_calibration (c : Nat) (s : State) : (s.raiseReference c).calibration = s.calibration := rfl
@[simp] theorem State.raiseReference_choices (c : Nat) (s : State) : (s.raiseReference c).choices = s.choices := rfl
@[simp] theorem State.raiseReference_pending (c : Nat) (s : State) : (s.raiseReference c).pending = s.pending := rfl
@[simp] theorem State.raiseReference_arm (c : Nat) (s : State) (i : ArmId) : (s.raiseReference c).arm i = s.arm i := rfl
@[simp] theorem State.raiseReference_lane (c : Nat) (s : State) (i : LaneId) : (s.raiseReference c).lane i = s.lane i := rfl
@[simp] theorem State.raiseReference_meter (c : Nat) (s : State) (i : MeterId) : (s.raiseReference c).meter i = s.meter i := rfl
@[simp] theorem State.raiseReference_injector (c : Nat) (s : State) (i : InjId) : (s.raiseReference c).injector i = s.injector i := rfl
@[simp] theorem State.raiseReference_head (c : Nat) (s : State) (i : ArmId) : (s.raiseReference c).head i = s.head i := rfl
@[simp] theorem State.raiseReference_running (c : Nat) (s : State) (i : ArmId) : (s.raiseReference c).running i = s.running i := rfl
@[simp] theorem State.raiseReference_armQueue (c : Nat) (s : State) (i : ArmId) : (s.raiseReference c).armQueue i = s.armQueue i := rfl
@[simp] theorem State.raiseReference_load (c : Nat) (s : State) (i : Nat) : (s.raiseReference c).load i = s.load i := rfl
@[simp] theorem State.raiseReference_defn (c : Nat) (s : State) (i : ArmId) : (s.raiseReference c).defn i = s.defn i := rfl

/-! ### attend -/

@[simp] theorem State.attend_powered (x : Source) (s : State) : (s.attend x).powered = s.powered := rfl
@[simp] theorem State.attend_loads (x : Source) (s : State) : (s.attend x).loads = s.loads := rfl
@[simp] theorem State.attend_recipes (x : Source) (s : State) : (s.attend x).recipes = s.recipes := rfl
@[simp] theorem State.attend_arms (x : Source) (s : State) : (s.attend x).arms = s.arms := rfl
@[simp] theorem State.attend_lanes (x : Source) (s : State) : (s.attend x).lanes = s.lanes := rfl
@[simp] theorem State.attend_metrology (x : Source) (s : State) : (s.attend x).metrology = s.metrology := rfl
@[simp] theorem State.attend_meters (x : Source) (s : State) : (s.attend x).meters = s.meters := rfl
@[simp] theorem State.attend_injectors (x : Source) (s : State) : (s.attend x).injectors = s.injectors := rfl
@[simp] theorem State.attend_header (x : Source) (s : State) : (s.attend x).header = s.header := rfl
@[simp] theorem State.attend_causes (x : Source) (s : State) : (s.attend x).causes = s.causes := rfl
@[simp] theorem State.attend_link (x : Source) (s : State) : (s.attend x).link = s.link := rfl
@[simp] theorem State.attend_calibration (x : Source) (s : State) : (s.attend x).calibration = s.calibration := rfl
@[simp] theorem State.attend_choices (x : Source) (s : State) : (s.attend x).choices = s.choices := rfl
@[simp] theorem State.attend_pending (x : Source) (s : State) : (s.attend x).pending = s.pending := rfl
@[simp] theorem State.attend_arm (x : Source) (s : State) (i : ArmId) : (s.attend x).arm i = s.arm i := rfl
@[simp] theorem State.attend_lane (x : Source) (s : State) (i : LaneId) : (s.attend x).lane i = s.lane i := rfl
@[simp] theorem State.attend_meter (x : Source) (s : State) (i : MeterId) : (s.attend x).meter i = s.meter i := rfl
@[simp] theorem State.attend_injector (x : Source) (s : State) (i : InjId) : (s.attend x).injector i = s.injector i := rfl
@[simp] theorem State.attend_head (x : Source) (s : State) (i : ArmId) : (s.attend x).head i = s.head i := rfl
@[simp] theorem State.attend_running (x : Source) (s : State) (i : ArmId) : (s.attend x).running i = s.running i := rfl
@[simp] theorem State.attend_armQueue (x : Source) (s : State) (i : ArmId) : (s.attend x).armQueue i = s.armQueue i := rfl
@[simp] theorem State.attend_load (x : Source) (s : State) (i : Nat) : (s.attend x).load i = s.load i := rfl
@[simp] theorem State.attend_recipe (x : Source) (s : State) (i : Nat) : (s.attend x).recipe i = s.recipe i := rfl
@[simp] theorem State.attend_defn (x : Source) (s : State) (i : ArmId) : (s.attend x).defn i = s.defn i := rfl

/-! ### What the updates write -/

theorem State.modArm_arm (a b : ArmId) (f : Arm → Arm) (s : State) :
    (s.modArm a f).arm b = if b = a then f (s.arm b) else s.arm b := by
  by_cases h : b = a
  · subst h; simp [State.arm, State.modArm]
  · have : a.val ≠ b.val := fun e => h (Fin.ext e.symm)
    simp [State.arm, State.modArm, h, this]

@[simp] theorem State.modArm_arm_same (a : ArmId) (f : Arm → Arm) (s : State) :
    (s.modArm a f).arm a = f (s.arm a) := by simp [State.modArm_arm]

theorem State.modArm_arm_ne {a b : ArmId} (h : b ≠ a) (f : Arm → Arm) (s : State) :
    (s.modArm a f).arm b = s.arm b := by simp [State.modArm_arm, h]

theorem State.modFlow_arm (a b : ArmId) (f : FlowState → FlowState) (s : State) :
    (s.modFlow a f).arm b = if b = a then { s.arm b with flow := f (s.arm b).flow } else s.arm b := by
  simp [State.modFlow, State.modArm_arm]

theorem State.zeroStray_arm (a b : ArmId) (s : State) :
    (s.zeroStray a).arm b = if b = a then (s.arm b).zeroStray else s.arm b := by
  simp [State.zeroStray, State.modArm_arm]

theorem State.modLane_lane (n k : LaneId) (f : Lane → Lane) (s : State) :
    (s.modLane n f).lane k = if k = n then f (s.lane k) else s.lane k := by
  by_cases h : k = n
  · subst h; simp [State.lane, State.modLane]
  · have : n.val ≠ k.val := fun e => h (Fin.ext e.symm)
    simp [State.lane, State.modLane, h, this]

@[simp] theorem State.modLane_lane_same (n : LaneId) (f : Lane → Lane) (s : State) :
    (s.modLane n f).lane n = f (s.lane n) := by simp [State.modLane_lane]

theorem State.modMeter_meter (m k : MeterId) (f : Meter → Meter) (s : State) :
    (s.modMeter m f).meter k = if k = m then f (s.meter k) else s.meter k := by
  by_cases h : k = m
  · subst h; simp [State.meter, State.modMeter]
  · have : m.val ≠ k.val := fun e => h (Fin.ext e.symm)
    simp [State.meter, State.modMeter, h, this]

@[simp] theorem State.modMeter_meter_same (m : MeterId) (f : Meter → Meter) (s : State) :
    (s.modMeter m f).meter m = f (s.meter m) := by simp [State.modMeter_meter]

theorem State.modInjector_injector (j k : InjId) (f : Injector → Injector) (s : State) :
    (s.modInjector j f).injector k = if k = j then f (s.injector k) else s.injector k := by
  by_cases h : k = j
  · subst h; simp [State.injector, State.modInjector]
  · have : j.val ≠ k.val := fun e => h (Fin.ext e.symm)
    simp [State.injector, State.modInjector, h, this]

@[simp] theorem State.modInjector_injector_same (j : InjId) (f : Injector → Injector) (s : State) :
    (s.modInjector j f).injector j = f (s.injector j) := by simp [State.modInjector_injector]

@[simp] theorem State.modHeader_header (f : Header → Header) (s : State) :
    (s.modHeader f).header = f s.header := rfl

@[simp] theorem State.modLink_link (f : Link → Link) (s : State) : (s.modLink f).link = f s.link := rfl

@[simp] theorem State.attend_enabled (x : Source) (s : State) :
    (s.attend x).attention.enabled = s.attention.enabled := rfl

@[simp] theorem State.attend_master (x : Source) (s : State) :
    (s.attend x).attention.master = s.attention.master := rfl

theorem State.attend_pending_flag (x : Source) (i : Fin 8) (s : State) :
    (s.attend x).attention.pending[i] = (decide (i = x.index) || s.attention.pending[i]) := by
  by_cases h : i = x.index
  · subst h; simp [State.attend]
  · have : x.index.val ≠ i.val := fun e => h (Fin.ext e.symm)
    simp [State.attend, h, this]

end Sys2Proof.Machine
end

