-- ==== Sys2Proof/Laws/Kept.lean ====
section
/-! SUPPORT. What every operation on a load in progress leaves as it was: one relation between two states, and
one lemma for each operation that the commands share. -/

namespace Sys2Proof.Machine

/-! ### The relation -/

/-- What an operation on loads in progress keeps of one record: who it is, what it was authorized for and the
ethanol line; an ENDED record whole; and that its outcome and net carries are as Table 1.1 says. -/
structure LoadKept (l m : Load) : Prop where
  number  : m.number = l.number
  tag     : m.tag = l.tag
  arm     : m.arm = l.arm
  recipe  : m.recipe = l.recipe
  rev     : m.rev = l.rev
  preset  : m.preset = l.preset
  amends  : m.amends = l.amends
  line    : m.bt = l.bt ∧ m.et = l.et ∧ m.va = l.va ∧ m.ea = l.ea ∧ m.db = l.db ∧ m.rb = l.rb
  mca     : m.mca = l.mca
  ended   : l.state = .ended → m = l
  record  : l.recordOk → m.recordOk
  carries : l.base.carry < 1000000 ∧ l.eth.carry < 1000000 → m.base.carry < 1000000 ∧ m.eth.carry < 1000000

/-- What such an operation keeps of one arm: definition and inputs; a lock, once there; valve commands within
range. -/
structure ArmKept (x y : Arm) : Prop where
  defn       : y.defn = x.defn
  levels     : y.levels = x.levels
  permissive : y.permissive = x.permissive
  latched    : y.latched = x.latched
  locked     : x.locked = true → y.locked = true ∧ y.lockRecord = x.lockRecord
  lockOk     : x.lockRecord.isSome = x.locked → y.lockRecord.isSome = y.locked
  valves     : x.valveBase ≤ 4095 ∧ x.valveEth ≤ 4095 → y.valveBase ≤ 4095 ∧ y.valveEth ≤ 4095

/-- What such an operation keeps of one lane: its input, and that it is SHUT. -/
structure LaneKept (x y : Lane) : Prop where
  emergency : y.emergency = x.emergency
  shut      : x.shut = true → y = x
  lockOk    : x.shutCause.isSome = x.shut → y.shutCause.isSome = y.shut

/-- What such an operation keeps of one channel: its settings and inputs, and that its stroke and timers belong
together. -/
structure InjectorKept (x y : Injector) : Prop where
  settings  : y.settings = x.settings
  proofIn   : y.proofIn = x.proofIn
  supplyLow : y.supplyLow = x.supplyLow
  stroke    : x.strokeOk → y.strokeOk

/-- What an operation on loads in progress keeps of the state. -/
structure Kept (s t : State) : Prop where
  powered     : t.powered = s.powered
  metrology   : t.metrology = s.metrology
  meters      : t.meters = s.meters
  causes      : t.causes = s.causes
  link        : t.link = s.link
  calibration : t.calibration = s.calibration
  pending     : t.pending = s.pending
  choices     : s.choices ≤ t.choices
  enabled     : t.attention.enabled = s.attention.enabled
  master      : t.attention.master = s.attention.master
  flags       : ∀ i : Fin 8, s.attention.pending[i] = true → t.attention.pending[i] = true
  capacity    : t.header.settings = s.header.settings
  pressure    : t.header.input = s.header.input ∧ t.header.lost = s.header.lost
  recipes     : (t.recipes.map (·.code)).Sublist (s.recipes.map (·.code))
  loads       : List.Forall₂ LoadKept s.loads t.loads
  arm         : ∀ a, ArmKept (s.arm a) (t.arm a)
  lane        : ∀ n, LaneKept (s.lane n) (t.lane n)
  injector    : ∀ j, InjectorKept (s.injector j) (t.injector j)
  queues      : s.queuesOk → t.queuesOk

/-! ### Reflexive and transitive -/

theorem LoadKept.refl (l : Load) : LoadKept l l where
  number := rfl
  tag := rfl
  arm := rfl
  recipe := rfl
  rev := rfl
  preset := rfl
  amends := rfl
  line := ⟨rfl, rfl, rfl, rfl, rfl, rfl⟩
  mca := rfl
  ended := fun _ => rfl
  record := id
  carries := id

theorem LoadKept.trans {l m k : Load} (h : LoadKept l m) (g : LoadKept m k) : LoadKept l k where
  number := g.number.trans h.number
  tag := g.tag.trans h.tag
  arm := g.arm.trans h.arm
  recipe := g.recipe.trans h.recipe
  rev := g.rev.trans h.rev
  preset := g.preset.trans h.preset
  amends := g.amends.trans h.amends
  line := by
    obtain ⟨a1, a2, a3, a4, a5, a6⟩ := h.line
    obtain ⟨b1, b2, b3, b4, b5, b6⟩ := g.line
    exact ⟨b1.trans a1, b2.trans a2, b3.trans a3, b4.trans a4, b5.trans a5, b6.trans a6⟩
  mca := g.mca.trans h.mca
  ended := fun e => by
    have hm := h.ended e
    exact (g.ended (hm ▸ e)).trans hm
  record := g.record ∘ h.record
  carries := g.carries ∘ h.carries

theorem ArmKept.refl (x : Arm) : ArmKept x x where
  defn := rfl
  levels := rfl
  permissive := rfl
  latched := rfl
  locked := fun h => ⟨h, rfl⟩
  lockOk := id
  valves := id

theorem ArmKept.trans {x y z : Arm} (h : ArmKept x y) (g : ArmKept y z) : ArmKept x z where
  defn := g.defn.trans h.defn
  levels := g.levels.trans h.levels
  permissive := g.permissive.trans h.permissive
  latched := g.latched.trans h.latched
  locked := fun e => ⟨(g.locked (h.locked e).1).1, (g.locked (h.locked e).1).2.trans (h.locked e).2⟩
  lockOk := g.lockOk ∘ h.lockOk
  valves := g.valves ∘ h.valves

theorem LaneKept.refl (x : Lane) : LaneKept x x := ⟨rfl, fun _ => rfl, id⟩

theorem LaneKept.trans {x y z : Lane} (h : LaneKept x y) (g : LaneKept y z) : LaneKept x z where
  emergency := g.emergency.trans h.emergency
  shut := fun e => by
    have hy := h.shut e
    exact (g.shut (hy ▸ e)).trans hy
  lockOk := g.lockOk ∘ h.lockOk

theorem InjectorKept.refl (x : Injector) : InjectorKept x x := ⟨rfl, rfl, rfl, id⟩

theorem InjectorKept.trans {x y z : Injector} (h : InjectorKept x y) (g : InjectorKept y z) :
    InjectorKept x z :=
  ⟨g.settings.trans h.settings, g.proofIn.trans h.proofIn, g.supplyLow.trans h.supplyLow,
    g.stroke ∘ h.stroke⟩

theorem loadsKept_refl (l : List Load) : List.Forall₂ LoadKept l l := by
  induction l with
  | nil => exact .nil
  | cons x xs ih => exact .cons (.refl x) ih

theorem loadsKept_trans {l m k : List Load} (h : List.Forall₂ LoadKept l m)
    (g : List.Forall₂ LoadKept m k) : List.Forall₂ LoadKept l k := by
  induction h generalizing k with
  | nil => cases g; exact .nil
  | cons h _ ih =>
    cases g with
    | cons g gs => exact .cons (h.trans g) (ih gs)

theorem Kept.refl (s : State) : Kept s s where
  powered := rfl
  metrology := rfl
  meters := rfl
  causes := rfl
  link := rfl
  calibration := rfl
  pending := rfl
  choices := le_refl _
  enabled := rfl
  master := rfl
  flags := fun _ h => h
  capacity := rfl
  pressure := ⟨rfl, rfl⟩
  recipes := .refl _
  loads := loadsKept_refl _
  arm := fun _ => .refl _
  lane := fun _ => .refl _
  injector := fun _ => .refl _
  queues := id

theorem Kept.trans {s t u : State} (h : Kept s t) (g : Kept t u) : Kept s u where
  powered := g.powered.trans h.powered
  metrology := g.metrology.trans h.metrology
  meters := g.meters.trans h.meters
  causes := g.causes.trans h.causes
  link := g.link.trans h.link
  calibration := g.calibration.trans h.calibration
  pending := g.pending.trans h.pending
  choices := h.choices.trans g.choices
  enabled := g.enabled.trans h.enabled
  master := g.master.trans h.master
  flags := fun i e => g.flags i (h.flags i e)
  capacity := g.capacity.trans h.capacity
  pressure := ⟨g.pressure.1.trans h.pressure.1, g.pressure.2.trans h.pressure.2⟩
  recipes := g.recipes.trans h.recipes
  loads := loadsKept_trans h.loads g.loads
  arm := fun a => (h.arm a).trans (g.arm a)
  lane := fun n => (h.lane n).trans (g.lane n)
  injector := fun j => (h.injector j).trans (g.injector j)
  queues := g.queues ∘ h.queues

/-! ### What it gives -/

theorem Kept.numbers {s t : State} (h : Kept s t) : t.loads.map (·.number) = s.loads.map (·.number) := by
  have := h.loads
  generalize s.loads = l, t.loads = m at this
  induction this with
  | nil => rfl
  | cons h _ ih => simp [h.number, ih]

/-- The load table keeps its length and its numbers. -/
theorem Kept.loadTableOk {s t : State} (h : Kept s t) (hs : s.loadTableOk) : t.loadTableOk := by
  refine ⟨?_, h.numbers ▸ hs.2⟩
  have := congrArg List.length h.numbers
  simp only [List.length_map] at this
  exact this ▸ hs.1

theorem Kept.recipeTableOk {s t : State} (h : Kept s t) (hs : s.recipeTableOk) : t.recipeTableOk := by
  refine ⟨?_, hs.2.sublist h.recipes⟩
  have := h.recipes.length_le
  simp only [List.length_map] at this
  exact this.trans hs.1

theorem Kept.mem_loads {s t : State} (h : Kept s t) {m : Load} (hm : m ∈ t.loads) :
    ∃ l ∈ s.loads, LoadKept l m := by
  have := h.loads
  generalize s.loads = l, t.loads = k at this hm
  induction this with
  | nil => cases hm
  | cons h _ ih =>
    rcases List.mem_cons.mp hm with rfl | hm
    · exact ⟨_, by simp, h⟩
    · obtain ⟨x, hx, hk⟩ := ih hm
      exact ⟨x, by simp [hx], hk⟩

theorem Kept.mem_loads_of {s t : State} (h : Kept s t) {l : Load} (hl : l ∈ s.loads) :
    ∃ m ∈ t.loads, LoadKept l m := by
  have := h.loads
  generalize s.loads = k, t.loads = m at this hl
  induction this with
  | nil => cases hl
  | cons h _ ih =>
    rcases List.mem_cons.mp hl with rfl | hl
    · exact ⟨_, by simp, h⟩
    · obtain ⟨x, hx, hk⟩ := ih hl
      exact ⟨x, by simp [hx], hk⟩

/-- An ENDED record stands (R16). -/
theorem Kept.ended_mem {s t : State} (h : Kept s t) {l : Load} (hl : l ∈ s.loads) (he : l.state = .ended) :
    l ∈ t.loads := by
  obtain ⟨m, hm, hk⟩ := h.mem_loads_of hl
  exact hk.ended he ▸ hm

theorem Kept.recordsOk {s t : State} (h : Kept s t) (hs : s.recordsOk) : t.recordsOk := fun _ hm =>
  let ⟨l, hl, hk⟩ := h.mem_loads hm
  hk.record (hs l hl)

theorem Kept.carriesOk {s t : State} (h : Kept s t) (hs : s.carriesOk) : t.carriesOk := fun _ hm =>
  let ⟨l, hl, hk⟩ := h.mem_loads hm
  hk.carries (hs l hl)

theorem Kept.valvesInRange {s t : State} (h : Kept s t) (hs : s.valvesInRange) : t.valvesInRange :=
  fun a => (h.arm a).valves (hs a)

theorem Kept.strokesOk {s t : State} (h : Kept s t) (hs : s.strokesOk) : t.strokesOk :=
  fun j => (h.injector j).stroke (hs j)

theorem Kept.permissivesOk {s t : State} (h : Kept s t) (hs : s.permissivesOk) : t.permissivesOk := fun a => by
  have ha := hs a
  simp only [Arm.derivedPermissive] at *
  rw [(h.arm a).permissive, (h.arm a).defn, (h.arm a).levels, ha]

theorem Kept.causesOk {s t : State} (h : Kept s t) (hs : s.causesOk) : t.causesOk := fun c => by
  rw [h.causes]
  exact hs c

theorem Kept.locksOk {s t : State} (h : Kept s t) (hs : s.locksOk) : t.locksOk :=
  ⟨fun a => (h.arm a).lockOk (hs.1 a), fun n => (h.lane n).lockOk (hs.2 n)⟩

theorem Kept.defn {s t : State} (h : Kept s t) (a : ArmId) : t.defn a = s.defn a := by
  simp [State.defn, (h.arm a).defn]

theorem Kept.laneOf {s t : State} (h : Kept s t) (a : ArmId) : t.laneOf a = s.laneOf a := by
  simp [State.laneOf, (h.arm a).defn]

theorem Kept.laneArms {s t : State} (h : Kept s t) (n : LaneId) : t.laneArms n = s.laneArms n := by
  simp [State.laneArms, h.laneOf]

theorem Kept.meter {s t : State} (h : Kept s t) (m : MeterId) : t.meter m = s.meter m := by
  simp [State.meter, h.meters]

theorem Kept.meterBinding {s t : State} (h : Kept s t) (m : MeterId) : t.meterBinding m = s.meterBinding m := by
  simp [State.meterBinding, fun a => (h.arm a).defn]

theorem Kept.injectorArm {s t : State} (h : Kept s t) (j : InjId) : t.injectorArm j = s.injectorArm j := by
  simp [State.injectorArm, fun a => (h.arm a).defn]

/-! ### Updates of one record -/

theorem filter_updFirst_same {α : Type} {p : α → Bool} {f : α → α} {l : List α} :
    (updFirst p f l).filter p =
      match l.filter p with
      | [] => []
      | x :: xs => if p (f x) then f x :: xs else xs := by
  induction l with
  | nil => rfl
  | cons y ys ih =>
    by_cases hy : p y = true
    · simp [updFirst, hy, List.filter_cons]
    · simp only [Bool.not_eq_true] at hy
      simpa [updFirst, hy, List.filter_cons] using ih

/-- The queues of the arms after an update of one head load. -/
theorem State.modHead_armQueue (a b : ArmId) {f : Load → Load} (s : State)
    (h : ∀ l, l.state ≠ .ended → (f l).arm = l.arm) :
    (s.modHead a f).armQueue b =
      if b = a then
        match s.armQueue a with
        | [] => []
        | x :: xs => if (f x).state = .ended then xs else f x :: xs
      else s.armQueue b := by
  by_cases hb : b = a
  · subst hb
    simp only [State.armQueue, State.modHead, ite_true, filter_updFirst_same]
    split <;> rename_i hq
    · simp only [hq]
    · rename_i x xs
      have hx : x ∈ s.loads.filter fun l => l.arm == b && l.state != .ended := by rw [hq]; simp
      simp only [List.mem_filter, Bool.and_eq_true, beq_iff_eq, bne_iff_ne, ne_eq] at hx
      simp only [hq, h x hx.2.2, hx.2.1, beq_self_eq_true, Bool.true_and]
      by_cases he : (f x).state = .ended <;> simp [he]
  · rw [if_neg hb]
    refine filter_updFirst_of_ne fun x _ hp => ?_
    simp only [Bool.and_eq_true, beq_iff_eq, bne_iff_ne, ne_eq] at hp
    have hab : ¬ a = b := fun e => hb e.symm
    simp [h x hp.2, hp.1, hab]

theorem State.modHead_kept {a : ArmId} {f : Load → Load} {s : State}
    (h : ∀ l, l.state ≠ .ended → LoadKept l (f l)) : Kept s (s.modHead a f) :=
  { Kept.refl s with
    loads := updFirst_forall₂ LoadKept.refl fun x _ hp => by
      simp only [Bool.and_eq_true, bne_iff_ne, ne_eq] at hp
      exact h x hp.2
    queues := fun hs b => by
      rw [State.modHead_armQueue a b s fun l hl => (h l hl).arm]
      split
      · have ha := hs a
        split
        · simp
        · rename_i x xs hq
          rw [hq] at ha
          simp only [List.length_cons, List.drop_one, List.tail_cons] at ha
          split
          · refine ⟨by omega, fun l hl => ha.2 l (List.mem_of_mem_drop hl)⟩
          · simpa using ha
      · exact hs b }

theorem State.modArm_kept {a : ArmId} {f : Arm → Arm} {s : State} (h : ∀ x, ArmKept x (f x)) :
    Kept s (s.modArm a f) :=
  { Kept.refl s with
    arm := fun b => by
      rw [State.modArm_arm]
      split
      · exact h _
      · exact .refl _ }

theorem State.modFlow_kept (a : ArmId) (f : FlowState → FlowState) (s : State) : Kept s (s.modFlow a f) :=
  State.modArm_kept fun x => { ArmKept.refl x with }

theorem State.modLane_kept {n : LaneId} {f : Lane → Lane} {s : State} (h : LaneKept (s.lane n) (f (s.lane n))) :
    Kept s (s.modLane n f) :=
  { Kept.refl s with
    lane := fun k => by
      rw [State.modLane_lane]
      split
      · rename_i e
        rw [e]
        exact h
      · exact .refl _ }

theorem State.modInjector_kept {j : InjId} {f : Injector → Injector} {s : State}
    (h : InjectorKept (s.injector j) (f (s.injector j))) : Kept s (s.modInjector j f) :=
  { Kept.refl s with
    injector := fun k => by
      rw [State.modInjector_injector]
      split
      · rename_i e
        rw [e]
        exact h
      · exact .refl _ }

theorem State.modHeader_kept {f : Header → Header} {s : State} (h : (f s.header).settings = s.header.settings)
    (hp : (f s.header).input = s.header.input ∧ (f s.header).lost = s.header.lost) :
    Kept s (s.modHeader f) :=
  { Kept.refl s with capacity := h, pressure := hp }

theorem State.attend_kept (x : Source) (s : State) : Kept s (s.attend x) :=
  { Kept.refl s with
    flags := fun i h => by rw [State.attend_pending_flag, h, Bool.or_true] }

theorem State.forAll_kept {α : Type} {l : List α} {f : α → State → State} {s : State}
    (h : ∀ x ∈ l, ∀ t, Kept t (f x t)) : Kept s (State.forAll l f s) :=
  State.forAll_keeps (P := Kept s) (.refl s) fun x hx t ht => ht.trans (h x hx t)

theorem State.forAllFree_kept {α : Type} {l : List α} {f : α → State → State} {s : State}
    (h : ∀ x ∈ l, ∀ t, Kept t (f x t)) : Kept s (State.forAllFree l f s) :=
  State.forAllFree_keeps (P := Kept s) { Kept.refl s with choices := Nat.le_succ _ }
    fun x hx t ht => ht.trans (h x hx t)

theorem State.modRecipe_kept {c : Nat} {f : Recipe → Recipe} {s : State}
    (h : ∀ r ∈ s.recipes, (f r).code = r.code) : Kept s (s.modRecipe c f) :=
  { Kept.refl s with
    recipes := by
      show (List.map _ (updFirst _ f s.recipes)).Sublist _
      rw [updFirst_map fun r hr _ => h r hr] }

theorem State.lowerReference_kept (c : Nat) (s : State) : Kept s (s.lowerReference c) := by
  unfold State.lowerReference
  split
  · exact .refl s
  · split
    · refine Kept.trans (t := { s with recipes := _ }) ?_ (State.attend_kept _ _)
      exact { Kept.refl s with recipes := (dropFirst_sublist _ _).map _ }
    · exact State.modRecipe_kept fun _ _ => rfl

/-- An arm whose stray volume is set to 0 (R66). -/
theorem State.zeroStray_kept (a : ArmId) (s : State) : Kept s (s.zeroStray a) :=
  State.modArm_kept fun x => { ArmKept.refl x with }

/-! ### Records -/

theorem mem_map_entries {l : List AddEntry} {f : AddEntry → AddEntry} {b : Bool}
    (hf : ∀ e, (f e).verdict = e.verdict) (h : ∀ e ∈ l, e.verdict.isSome = b) :
    ∀ e ∈ l.map f, e.verdict.isSome = b := by
  intro e he
  obtain ⟨x, hx, rfl⟩ := List.mem_map.mp he
  rw [hf]
  exact h x hx

theorem mem_updFirst_entries {l : List AddEntry} {p : AddEntry → Bool} {f : AddEntry → AddEntry} {b : Bool}
    (hf : ∀ e, (f e).verdict = e.verdict) (h : ∀ e ∈ l, e.verdict.isSome = b) :
    ∀ e ∈ updFirst p f l, e.verdict.isSome = b := by
  intro e he
  rcases mem_updFirst he with he | ⟨x, hx, -, rfl⟩
  · exact h e he
  · rw [hf]
    exact h x hx

/-- A change of a record not ENDED that writes neither its outcome, verdicts, identity, line nor accounts, and
does not end it. -/
theorem LoadKept.of_not_ended {l m : Load} (hl : l.state ≠ .ended) (hm : m.state ≠ .ended)
    (hid : m.number = l.number ∧ m.tag = l.tag ∧ m.arm = l.arm ∧ m.recipe = l.recipe ∧ m.rev = l.rev ∧
      m.preset = l.preset ∧ m.amends = l.amends ∧ m.mca = l.mca)
    (hline : m.bt = l.bt ∧ m.et = l.et ∧ m.va = l.va ∧ m.ea = l.ea ∧ m.db = l.db ∧ m.rb = l.rb)
    (hout : m.outcome = l.outcome ∧ m.frac = l.frac ∧ m.ethVerdict = l.ethVerdict ∧ m.overrun = l.overrun)
    (hadds : (∀ e ∈ l.adds, e.verdict.isSome = false) → ∀ e ∈ m.adds, e.verdict.isSome = false)
    (hcarry : l.base.carry < 1000000 ∧ l.eth.carry < 1000000 →
      m.base.carry < 1000000 ∧ m.eth.carry < 1000000) : LoadKept l m where
  number := hid.1
  tag := hid.2.1
  arm := hid.2.2.1
  recipe := hid.2.2.2.1
  rev := hid.2.2.2.2.1
  preset := hid.2.2.2.2.2.1
  amends := hid.2.2.2.2.2.2.1
  line := hline
  mca := hid.2.2.2.2.2.2.2
  ended := fun e => absurd e hl
  record := by
    have el : (l.state == .ended) = false := by simpa using hl
    have em : (m.state == .ended) = false := by simpa using hm
    obtain ⟨o1, o2, o3, o4⟩ := hout
    simp only [Load.recordOk, el, em, o1, o2, o3, o4]
    exact fun ⟨h1, h2, h3, h4, h5⟩ => ⟨h1, h2, h3, h4, hadds h5⟩
  carries := hcarry

/-- The same for a change that leaves the accounts and the additive entries alone. -/
theorem LoadKept.of_plain {l m : Load} (hl : l.state ≠ .ended) (hm : m.state ≠ .ended)
    (hid : m.number = l.number ∧ m.tag = l.tag ∧ m.arm = l.arm ∧ m.recipe = l.recipe ∧ m.rev = l.rev ∧
      m.preset = l.preset ∧ m.amends = l.amends ∧ m.mca = l.mca)
    (hline : m.bt = l.bt ∧ m.et = l.et ∧ m.va = l.va ∧ m.ea = l.ea ∧ m.db = l.db ∧ m.rb = l.rb)
    (hout : m.outcome = l.outcome ∧ m.frac = l.frac ∧ m.ethVerdict = l.ethVerdict ∧ m.overrun = l.overrun)
    (hrest : m.adds = l.adds ∧ m.base = l.base ∧ m.eth = l.eth) : LoadKept l m :=
  .of_not_ended hl hm hid hline hout (by rw [hrest.1]; exact id) (by rw [hrest.2.1, hrest.2.2]; exact id)

/-! ### Flow split and grants -/

theorem valveCommand_le (q fs : Nat) : valveCommand q fs ≤ 4095 := min_le_left _ _

theorem Arm.setFlow_kept (x : Arm) (q qb qe : Nat) : ArmKept x (x.setFlow q qb qe) :=
  { ArmKept.refl x with valves := fun _ => ⟨valveCommand_le _ _, valveCommand_le _ _⟩ }

theorem Arm.zeroFlow_kept (x : Arm) : ArmKept x x.zeroFlow :=
  { ArmKept.refl x with valves := fun _ => ⟨by simp [Arm.zeroFlow], by simp [Arm.zeroFlow]⟩ }

theorem State.applySplit_kept (a : ArmId) (s : State) : Kept s (s.applySplit a) := by
  unfold State.applySplit
  split
  · exact .refl s
  · split
    · exact State.modArm_kept fun x => x.setFlow_kept _ _ _
    · exact .refl s

theorem State.recomputeGrants_kept (handing : Option ArmId) (s : State) :
    Kept s (s.recomputeGrants handing) :=
  Kept.trans (State.modHeader_kept rfl ⟨rfl, rfl⟩)
    (State.forAll_kept fun _ _ t => t.applySplit_kept _)

theorem State.formSplit_kept (a : ArmId) (s : State) : Kept s (s.formSplit a) := by
  unfold State.formSplit
  split
  · split
    · exact State.applySplit_kept _ _
    · split
      · exact State.applySplit_kept _ _
      · refine Kept.trans (Kept.trans ?_ (State.recomputeGrants_kept _ _)) (State.applySplit_kept _ _)
        exact State.modHeader_kept rfl ⟨rfl, rfl⟩
  · exact .refl s

/-! ### Profile, firing test and entry to FLOWING -/

theorem State.snapDemand_kept (a : ArmId) (s : State) : Kept s (s.snapDemand a) := by
  unfold State.snapDemand
  split
  · exact .refl s
  · split
    · exact State.modFlow_kept _ _ _
    · exact .refl s

theorem State.evalProfile_kept (a : ArmId) (s : State) : Kept s (s.evalProfile a) := by
  unfold State.evalProfile
  split
  · exact .refl s
  · dsimp only
    split
    · refine Kept.trans (Kept.trans ?_ (State.modFlow_kept _ _ _)) (State.snapDemand_kept _ _)
      exact State.modHead_kept fun l hl =>
        .of_plain hl hl ⟨rfl, rfl, rfl, rfl, rfl, rfl, rfl, rfl⟩ ⟨rfl, rfl, rfl, rfl, rfl, rfl⟩
          ⟨rfl, rfl, rfl, rfl⟩ ⟨rfl, rfl, rfl⟩
    · exact .refl s

theorem Injector.fire_kept (l : Load) {j : Injector} : InjectorKept j (j.fire l) :=
  ⟨rfl, rfl, rfl, fun _ => ⟨rfl, rfl, rfl⟩⟩

/-- A change of one additive entry that leaves its verdict. -/
theorem Load.modEntry_kept {l : Load} {f : AddEntry → AddEntry} (j : InjId) (hl : l.state ≠ .ended)
    (hf : ∀ e, (f e).verdict = e.verdict) : LoadKept l (l.modEntry j f) :=
  .of_not_ended hl hl ⟨rfl, rfl, rfl, rfl, rfl, rfl, rfl, rfl⟩ ⟨rfl, rfl, rfl, rfl, rfl, rfl⟩
    ⟨rfl, rfl, rfl, rfl⟩ (mem_updFirst_entries hf) id

theorem State.testFiring_kept (a : ArmId) (ch : InjId) (s : State) : Kept s (s.testFiring a ch) := by
  unfold State.testFiring
  split
  · exact .refl s
  · split
    · exact .refl s
    · split
      · refine Kept.trans ?_ (State.modInjector_kept (Injector.fire_kept _))
        exact State.modHead_kept fun l hl => Load.modEntry_kept _ hl fun _ => rfl
      · exact .refl s

theorem State.testAllFiring_kept (a : ArmId) (s : State) : Kept s (s.testAllFiring a) :=
  State.forAll_kept fun _ _ t => t.testFiring_kept _ _

/-- R173: the firing test changes nothing while the arm is LOCKED or its lane SHUT. -/
theorem State.testFiring_of_barred {s : State} {a : ArmId} (ch : InjId) (h : s.strokesBarred a = true) :
    s.testFiring a ch = s := by
  unfold State.testFiring State.mayFire
  split
  · rfl
  · split <;> simp [h]

theorem State.testAllFiring_of_barred {s : State} {a : ArmId} (h : s.strokesBarred a = true) :
    s.testAllFiring a = s :=
  State.forAll_keeps (P := (· = s)) rfl fun ch _ _ ht => by rw [ht]; exact s.testFiring_of_barred ch h

theorem State.enterFlowing_kept (a : ArmId) (phase : Phase) (s : State) :
    Kept s (s.enterFlowing a phase) := by
  unfold State.enterFlowing
  dsimp only
  refine Kept.trans (Kept.trans ?_ (State.formSplit_kept _ _)) (State.testAllFiring_kept _ _)
  split
  · refine Kept.trans (Kept.trans ?_ (State.modFlow_kept _ _ _)) (State.evalProfile_kept _ _)
    exact State.modHead_kept fun l hl =>
      .of_plain hl (by simp) ⟨rfl, rfl, rfl, rfl, rfl, rfl, rfl, rfl⟩ ⟨rfl, rfl, rfl, rfl, rfl, rfl⟩
        ⟨rfl, rfl, rfl, rfl⟩ ⟨rfl, rfl, rfl⟩
  · exact State.modHead_kept fun l hl =>
      .of_plain hl (by simp) ⟨rfl, rfl, rfl, rfl, rfl, rfl, rfl, rfl⟩ ⟨rfl, rfl, rfl, rfl, rfl, rfl⟩
        ⟨rfl, rfl, rfl, rfl⟩ ⟨rfl, rfl, rfl⟩

/-! ### The admission queue -/

theorem State.admitHead_kept (a : ArmId) (s : State) : Kept s (s.admitHead a) :=
  ((State.modHeader_kept rfl ⟨rfl, rfl⟩).trans (State.recomputeGrants_kept _ _)).trans
    (State.enterFlowing_kept _ _ _)

theorem State.evaluateQueueFor_kept (n : Nat) (s : State) : Kept s (s.evaluateQueueFor n) := by
  induction n generalizing s with
  | zero => exact .refl s
  | succ n ih =>
    unfold State.evaluateQueueFor
    split
    · exact .refl s
    · split
      · exact (s.admitHead_kept _).trans (ih _)
      · exact .refl s

theorem State.evaluateQueue_kept (s : State) : Kept s s.evaluateQueue := s.evaluateQueueFor_kept _

theorem State.joinQueue_kept (a : ArmId) (s : State) : Kept s (s.joinQueue a) := by
  have h1 : Kept s (s.modHeader fun h => { h with queue := h.queue ++ [a] }) :=
    State.modHeader_kept rfl ⟨rfl, rfl⟩
  have h2 := h1.trans (State.evaluateQueue_kept _)
  unfold State.joinQueue
  dsimp only
  split <;> split
  · exact h2.trans (State.attend_kept _ _)
  · exact h2
  · exact h1.trans (State.attend_kept _ _)
  · exact h1

theorem State.leaveQueue_kept (a : ArmId) (s : State) : Kept s (s.leaveQueue a) := by
  have h1 : Kept s (s.modHeader fun h => { h with queue := h.queue.filter (· != a) }) :=
    State.modHeader_kept rfl ⟨rfl, rfl⟩
  unfold State.leaveQueue
  dsimp only
  split
  · split
    · exact h1.trans (State.evaluateQueue_kept _)
    · exact h1
  · exact .refl s

theorem State.leaveParticipants_kept (a : ArmId) (s : State) : Kept s (s.leaveParticipants a) := by
  unfold State.leaveParticipants
  split
  · refine Kept.trans (Kept.trans ?_ (State.recomputeGrants_kept _ _)) (State.evaluateQueue_kept _)
    exact State.modHeader_kept rfl ⟨rfl, rfl⟩
  · exact .refl s

theorem State.leaveHeader_kept (a : ArmId) (s : State) : Kept s (s.leaveHeader a) :=
  (s.leaveParticipants_kept a).trans (State.leaveQueue_kept _ _)

/-! ### Settling -/

theorem Injector.cut_kept (j : Injector) : InjectorKept j j.cut := by
  unfold Injector.cut
  split
  · rename_i h
    simp only [beq_iff_eq] at h
    refine ⟨rfl, rfl, rfl, fun ⟨h1, h2, h3⟩ => ⟨?_, ?_, rfl⟩⟩
    · rw [h] at h1; exact h1
    · rw [h] at h2; exact h2
  · exact .refl j

theorem State.cutStrokes_kept (a : ArmId) (s : State) : Kept s (s.cutStrokes a) :=
  Kept.trans (State.forAll_kept fun _ _ _ => State.modInjector_kept (Injector.cut_kept _))
    (State.modArm_kept fun x => { ArmKept.refl x with })

theorem State.awaitFinal_kept (a : ArmId) (s : State) : Kept s (s.awaitFinal a) :=
  Kept.trans (State.forAll_kept fun _ _ _ => State.modInjector_kept { InjectorKept.refl _ with stroke := id })
    (State.modArm_kept fun x => { ArmKept.refl x with })

theorem Arm.startSettle_kept (x : Arm) : ArmKept x x.startSettle :=
  { ArmKept.refl x with valves := fun _ => ⟨by simp [Arm.startSettle, Arm.zeroFlow],
      by simp [Arm.startSettle, Arm.zeroFlow]⟩ }

theorem State.enterSettling_kept (a : ArmId) (how : Option PendingOutcome) (s : State) :
    Kept s (s.enterSettling a how) := by
  unfold State.enterSettling
  have h1 : Kept s (State.leaveHeader a (State.modArm a Arm.startSettle (s.modHead a fun l =>
      { l with
        state := .settling
        admitFrom := none
        share := 0
        pendingOut := if how.isSome then how else l.pendingOut
        flushInc := l.flushInc || (how.isSome && l.losesFlush) }))) := by
    refine ((State.modHead_kept fun l hl => ?_).trans (State.modArm_kept Arm.startSettle_kept)).trans
      (State.leaveHeader_kept _ _)
    exact .of_plain hl (by simp) ⟨rfl, rfl, rfl, rfl, rfl, rfl, rfl, rfl⟩ ⟨rfl, rfl, rfl, rfl, rfl, rfl⟩
      ⟨rfl, rfl, rfl, rfl⟩ ⟨rfl, rfl, rfl⟩
  dsimp only
  split
  · exact h1.trans (State.cutStrokes_kept _ _)
  · exact h1.trans (State.awaitFinal_kept _ _)

/-! ### HOLD, END and TRIP -/

/-- What a cause writes into a record: its sets and its stop records. -/
theorem Load.joinHold_kept (code : StopCode) {l : Load} (hl : l.state ≠ .ended) :
    LoadKept l (l.joinHold code) := by
  cases code with
  | endRequest => exact .refl l
  | cause c =>
    exact .of_plain hl hl ⟨rfl, rfl, rfl, rfl, rfl, rfl, rfl, rfl⟩ ⟨rfl, rfl, rfl, rfl, rfl, rfl⟩
      ⟨rfl, rfl, rfl, rfl⟩ ⟨rfl, rfl, rfl⟩

theorem Load.fillStop_kept (code : StopCode) (cls : Cls) (det : Detail) {l : Load} (hl : l.state ≠ .ended) :
    LoadKept l (l.fillStop code cls det) := by
  unfold Load.fillStop
  split
  · exact .of_plain hl hl ⟨rfl, rfl, rfl, rfl, rfl, rfl, rfl, rfl⟩ ⟨rfl, rfl, rfl, rfl, rfl, rfl⟩
      ⟨rfl, rfl, rfl, rfl⟩ ⟨rfl, rfl, rfl⟩
  · split
    · exact .of_plain hl hl ⟨rfl, rfl, rfl, rfl, rfl, rfl, rfl, rfl⟩ ⟨rfl, rfl, rfl, rfl, rfl, rfl⟩
        ⟨rfl, rfl, rfl, rfl⟩ ⟨rfl, rfl, rfl⟩
    · exact .refl l

theorem Load.joinHold_state (code : StopCode) (l : Load) : (l.joinHold code).state = l.state := by
  cases code <;> rfl

theorem Load.keepDetail_kept (code : StopCode) (det : Detail) {l : Load} (hl : l.state ≠ .ended) :
    LoadKept l (l.keepDetail code det) := by
  unfold Load.keepDetail
  split
  · exact .refl l
  · split
    · exact .of_plain hl hl ⟨rfl, rfl, rfl, rfl, rfl, rfl, rfl, rfl⟩ ⟨rfl, rfl, rfl, rfl, rfl, rfl⟩
        ⟨rfl, rfl, rfl, rfl⟩ ⟨rfl, rfl, rfl⟩
    · exact .refl l

/-- R190: what the stop unit keeps of a taking: the details there were and, of a condition-based cause, its own. -/
theorem Load.mem_keepDetail {code : StopCode} {det : Detail} {l : Load} {x : Cause × Detail} :
    x ∈ (l.keepDetail code det).holdDetails ↔
      x ∈ l.holdDetails ∨ (code = .cause x.1 ∧ det = x.2 ∧ x.1.conditionBased = true) := by
  obtain ⟨c, d⟩ := x
  cases code with
  | endRequest => simp [Load.keepDetail]
  | cause k =>
    simp only [Load.keepDetail]
    split <;> rename_i h <;> simp_all <;> grind

/-- A detail kept changes nothing else of the record. -/
theorem Load.keepDetail_eq (code : StopCode) (det : Detail) (l : Load) :
    l.keepDetail code det = { l with holdDetails := (l.keepDetail code det).holdDetails } := by
  unfold Load.keepDetail
  split
  · rfl
  · split <;> rfl

theorem State.enterHeld_kept (a : ArmId) (code : StopCode) (s : State) : Kept s (s.enterHeld a code) := by
  unfold State.enterHeld
  refine Kept.trans (Kept.trans (Kept.trans ?_ (State.modArm_kept Arm.zeroFlow_kept))
    (State.leaveHeader_kept _ _)) (State.attend_kept _ _)
  refine State.modHead_kept fun l hl => (Load.joinHold_kept code hl).trans ?_
  exact .of_plain (by rwa [Load.joinHold_state]) (by simp) ⟨rfl, rfl, rfl, rfl, rfl, rfl, rfl, rfl⟩
    ⟨rfl, rfl, rfl, rfl, rfl, rfl⟩ ⟨rfl, rfl, rfl, rfl⟩ ⟨rfl, rfl, rfl⟩

theorem State.backToAuthorized_kept (a : ArmId) (s : State) : Kept s (s.backToAuthorized a) := by
  unfold State.backToAuthorized
  refine Kept.trans (Kept.trans ?_ (State.modArm_kept Arm.zeroFlow_kept)) (State.leaveHeader_kept _ _)
  exact State.modHead_kept fun l hl =>
    .of_plain hl (by simp) ⟨rfl, rfl, rfl, rfl, rfl, rfl, rfl, rfl⟩ ⟨rfl, rfl, rfl, rfl, rfl, rfl⟩
      ⟨rfl, rfl, rfl, rfl⟩ ⟨rfl, rfl, rfl⟩

theorem State.enterEnding_kept (a : ArmId) (l : Load) (s : State) : Kept s (s.enterEnding a l) := by
  unfold State.enterEnding
  have h1 : ∀ q : Int, Kept s (State.leaveHeader a (State.modFlow a
      (fun f => { f with flushQty := q, flushStart := l.base.gross })
      (s.modHead a fun l => { l with state := .ending, share := 0 }))) := fun q => by
    refine Kept.trans (Kept.trans ?_ (State.modFlow_kept _ _ _)) (State.leaveHeader_kept _ _)
    exact State.modHead_kept fun l hl =>
      .of_plain hl (by simp) ⟨rfl, rfl, rfl, rfl, rfl, rfl, rfl, rfl⟩ ⟨rfl, rfl, rfl, rfl, rfl, rfl⟩
        ⟨rfl, rfl, rfl, rfl⟩ ⟨rfl, rfl, rfl⟩
  dsimp only
  split
  · exact (h1 _).trans (State.enterSettling_kept _ _ _)
  · exact ((h1 _).trans (State.formSplit_kept _ _)).trans (State.testAllFiring_kept _ _)

theorem State.actHold_kept (a : ArmId) (code : StopCode) (l : Load) (s : State) :
    Kept s (s.actHold a code l) := by
  unfold State.actHold
  split
  · split
    · exact State.backToAuthorized_kept _ _
    · exact State.enterHeld_kept _ _ _
  · exact State.enterHeld_kept _ _ _
  · exact State.modHead_kept fun l hl => Load.joinHold_kept code hl
  · exact State.enterSettling_kept _ _ _
  all_goals exact .refl s

theorem State.actEnd_kept (a : ArmId) (l : Load) (s : State) : Kept s (s.actEnd a l) := by
  unfold State.actEnd
  split
  · exact State.enterSettling_kept _ _ _
  · exact State.enterSettling_kept _ _ _
  · exact State.enterEnding_kept _ _ _
  all_goals exact .refl s

theorem State.actTrip_kept (a : ArmId) (s : State) : Kept s (s.actTrip a) := by
  unfold State.actTrip
  split
  · exact .refl s
  · split
    · refine Kept.trans ?_ (State.cutStrokes_kept _ _)
      exact State.modHead_kept fun l hl =>
        .of_plain hl hl ⟨rfl, rfl, rfl, rfl, rfl, rfl, rfl, rfl⟩ ⟨rfl, rfl, rfl, rfl, rfl, rfl⟩
          ⟨rfl, rfl, rfl, rfl⟩ ⟨rfl, rfl, rfl⟩
    · exact State.enterSettling_kept _ _ _

theorem State.takeNotice_kept (a : ArmId) (code : StopCode) (s : State) : Kept s (s.takeNotice a code) := by
  unfold State.takeNotice
  refine Kept.trans (State.modHead_kept fun l hl => ?_) (State.attend_kept _ _)
  cases code with
  | endRequest => exact .refl l
  | cause c =>
    exact .of_plain hl hl ⟨rfl, rfl, rfl, rfl, rfl, rfl, rfl, rfl⟩ ⟨rfl, rfl, rfl, rfl, rfl, rfl⟩
      ⟨rfl, rfl, rfl, rfl⟩ ⟨rfl, rfl, rfl⟩

/-! ### Locks and lane shutdown -/

theorem State.lockArm_kept (a : ArmId) (c : Cause) (det : Detail) (s : State) : Kept s (s.lockArm a c det) := by
  refine Kept.trans (State.modArm_kept fun x => ?_) (State.attend_kept _ _)
  split
  · exact .refl x
  · rename_i h
    exact { ArmKept.refl x with locked := fun e => absurd e h, lockOk := fun _ => rfl }

theorem State.laneTrip_kept (c : Cause) (det : Detail) (a : ArmId) (s : State) :
    Kept s (s.laneTrip c det a) := by
  unfold State.laneTrip
  refine Kept.trans (Kept.trans ?_ (State.actTrip_kept _ _)) (State.lockArm_kept _ _ _ _)
  split
  · exact State.modHead_kept fun l hl => Load.fillStop_kept _ _ _ hl
  · exact .refl s

theorem State.shutLane_kept (n : LaneId) (c : Cause) (s : State) : Kept s (s.shutLane n c) := by
  unfold State.shutLane
  split
  · exact .refl s
  · rename_i h
    refine Kept.trans (Kept.trans (State.modLane_kept ?_)
      (State.forAll_kept fun _ _ t => State.zeroStray_kept _ t)) (State.attend_kept _ _)
    exact ⟨rfl, fun e => absurd e h, fun _ => rfl⟩

theorem State.escalateLane_kept (a : ArmId) (c : Cause) (det : Detail) (s : State) :
    Kept s (s.escalateLane a c det) := by
  unfold State.escalateLane
  split
  · exact .refl s
  · split
    · exact .refl s
    · exact (State.shutLane_kept _ _ _).trans (State.forAllFree_kept fun _ _ t => State.laneTrip_kept _ _ _ t)

theorem State.tripArm_kept (a : ArmId) (c : Cause) (det : Detail) (s : State) : Kept s (s.tripArm a c det) := by
  unfold State.tripArm
  dsimp only
  split
  · exact (State.laneTrip_kept _ _ _ _).trans (State.escalateLane_kept _ _ _ _)
  · exact State.laneTrip_kept _ _ _ _

theorem State.emergencyTrip_kept (n : LaneId) (s : State) : Kept s (s.emergencyTrip n) :=
  (State.shutLane_kept _ _ _).trans (State.forAllFree_kept fun _ _ t => State.laneTrip_kept _ _ _ t)

theorem State.readEmergencies_kept (s : State) : Kept s s.readEmergencies :=
  State.forAll_kept fun n _ t => by
    unfold State.readEmergency
    split
    · exact t.emergencyTrip_kept n
    · exact .refl t

/-! ### Taking a cause, resuming -/

theorem State.takeOnLoad_kept (a : ArmId) (code : StopCode) (cls : Cls) (det : Detail) (l : Load)
    (s : State) : Kept s (s.takeOnLoad a code cls det l) := by
  have h1 : Kept s (s.modHead a (Load.keepDetail code det)) :=
    State.modHead_kept fun l hl => Load.keepDetail_kept _ _ hl
  have h2 := h1.trans (State.modHead_kept (a := a) fun l hl => Load.fillStop_kept code cls det hl)
  unfold State.takeOnLoad
  dsimp only
  split
  · exact h1.trans (State.takeNotice_kept _ _ _)
  · split
    · exact h2.trans (State.actHold_kept _ _ _ _)
    · exact h2.trans (State.actEnd_kept _ _ _)
    · exact h2
    · exact h2

theorem State.takeCause_kept (a : ArmId) (code : StopCode) (det : Detail) (s : State) :
    Kept s (s.takeCause a code det) := by
  unfold State.takeCause
  dsimp only
  split
  · exact State.tripArm_kept _ _ _ _
  · split
    · exact .refl s
    · split
      · refine Kept.trans (State.modHead_kept fun l hl => ?_) (State.takeOnLoad_kept _ _ _ _ _ _)
        exact .of_plain hl hl ⟨rfl, rfl, rfl, rfl, rfl, rfl, rfl, rfl⟩ ⟨rfl, rfl, rfl, rfl, rfl, rfl⟩
          ⟨rfl, rfl, rfl, rfl⟩ ⟨rfl, rfl, rfl⟩
      · exact State.takeOnLoad_kept _ _ _ _ _ _

theorem State.takeResume_kept (a : ArmId) (l : Load) (s : State) : Kept s (s.takeResume a l) := by
  unfold State.takeResume
  dsimp only
  have h1 : ∀ (n : Nat) (v : Nat), Kept s (State.modFlow a (fun f => { f with resumeVol := v })
      (s.modHead a fun l =>
        { l with
          holds := []
          holdDetails := []
          resumes := min 15 (l.resumes + 1)
          rstLeft := n
          adds := l.adds.map fun e => { e with consec := 0 } })) := fun n v => by
    refine Kept.trans (State.modHead_kept fun l hl => ?_) (State.modFlow_kept _ _ _)
    exact .of_not_ended hl hl ⟨rfl, rfl, rfl, rfl, rfl, rfl, rfl, rfl⟩ ⟨rfl, rfl, rfl, rfl, rfl, rfl⟩
      ⟨rfl, rfl, rfl, rfl⟩ (mem_map_entries fun _ => rfl) id
  split
  · refine Kept.trans ((h1 _ _).trans (State.modHead_kept fun l hl => ?_)) (State.joinQueue_kept _ _)
    exact .of_plain hl (by simp) ⟨rfl, rfl, rfl, rfl, rfl, rfl, rfl, rfl⟩ ⟨rfl, rfl, rfl, rfl, rfl, rfl⟩
      ⟨rfl, rfl, rfl, rfl⟩ ⟨rfl, rfl, rfl⟩
  · exact (h1 _ _).trans (State.enterFlowing_kept _ _ _)

/-! ### Closes -/

theorem Account.netClose_carry (m : Meter) (t : Int) (c : Account) : (c.netClose m t).carry < 1000000 := by
  simp only [Account.netClose]
  omega

/-- A close of the accounts of a record. -/
theorem State.netCloseRole_kept (s : State) (d : ArmDef) (live : Bool) (r : Role) {l : Load}
    (hl : l.state ≠ .ended) :
    LoadKept l (s.netCloseRole d live r l) ∧ (s.netCloseRole d live r l).state = l.state := by
  unfold State.netCloseRole
  split
  · exact ⟨.refl l, rfl⟩
  · rename_i m _
    have hc := Account.netClose_carry (s.meter m)
    cases r with
    | base =>
      exact ⟨.of_not_ended hl hl ⟨rfl, rfl, rfl, rfl, rfl, rfl, rfl, rfl⟩ ⟨rfl, rfl, rfl, rfl, rfl, rfl⟩
        ⟨rfl, rfl, rfl, rfl⟩ id fun h => ⟨hc _ _, h.2⟩, rfl⟩
    | ethanol =>
      exact ⟨.of_not_ended hl hl ⟨rfl, rfl, rfl, rfl, rfl, rfl, rfl, rfl⟩ ⟨rfl, rfl, rfl, rfl, rfl, rfl⟩
        ⟨rfl, rfl, rfl, rfl⟩ id fun h => ⟨h.1, hc _ _⟩, rfl⟩

theorem State.netCloseLoad_kept (s : State) (live : Bool) {l : Load} (hl : l.state ≠ .ended) :
    LoadKept l (s.netCloseLoad live l) ∧ (s.netCloseLoad live l).state = l.state := by
  unfold State.netCloseLoad
  have h1 := s.netCloseRole_kept (s.defn l.arm) live .base hl
  have h2 := s.netCloseRole_kept (s.defn l.arm) live .ethanol (l := s.netCloseRole (s.defn l.arm) live .base l)
    (by rw [h1.2]; exact hl)
  exact ⟨h1.1.trans h2.1, h2.2.trans h1.2⟩

theorem State.closeAccounts_kept (s : State) {l : Load} (hl : l.state ≠ .ended) :
    LoadKept l (s.closeAccounts l) := by
  have h0 : LoadKept l { l with vc := l.v } :=
    .of_plain hl hl ⟨rfl, rfl, rfl, rfl, rfl, rfl, rfl, rfl⟩ ⟨rfl, rfl, rfl, rfl, rfl, rfl⟩
      ⟨rfl, rfl, rfl, rfl⟩ ⟨rfl, rfl, rfl⟩
  have h1 := s.netCloseLoad_kept true (l := { l with vc := l.v }) hl
  unfold State.closeAccounts
  dsimp only
  split
  · refine (h0.trans h1.1).trans ?_
    have hs : (s.netCloseLoad true { l with vc := l.v }).state ≠ .ended := by rw [h1.2]; exact hl
    exact .of_plain hs hs ⟨rfl, rfl, rfl, rfl, rfl, rfl, rfl, rfl⟩ ⟨rfl, rfl, rfl, rfl, rfl, rfl⟩
      ⟨rfl, rfl, rfl, rfl⟩ ⟨rfl, rfl, rfl⟩
  · exact h0.trans h1.1

theorem State.actFindings_kept (a : ArmId) (l : Load) (s : State) : Kept s (s.actFindings a l) := by
  have h1 : Kept s (s.modHead a fun l => { l with phase := .flush, share := 0 }) :=
    State.modHead_kept fun l hl =>
      .of_plain hl hl ⟨rfl, rfl, rfl, rfl, rfl, rfl, rfl, rfl⟩ ⟨rfl, rfl, rfl, rfl, rfl, rfl⟩
        ⟨rfl, rfl, rfl, rfl⟩ ⟨rfl, rfl, rfl⟩
  unfold State.actFindings
  split
  · exact State.enterSettling_kept _ _ _
  · split
    · split
      · split
        · exact h1.trans (State.leaveHeader_kept _ _)
        · exact .refl s
      · exact h1
      · exact (State.leaveHeader_kept _ _).trans (State.enterFlowing_kept _ _ _)
      all_goals exact .refl s
    · exact .refl s

theorem State.writeDue_kept (s : State) (v : Nat) {l : Load} (hl : l.state ≠ .ended) :
    LoadKept l (s.writeDue v l) :=
  .of_not_ended hl hl ⟨rfl, rfl, rfl, rfl, rfl, rfl, rfl, rfl⟩ ⟨rfl, rfl, rfl, rfl, rfl, rfl⟩
    ⟨rfl, rfl, rfl, rfl⟩ (mem_map_entries fun _ => rfl) id

theorem State.judgeLag_kept (a : ArmId) (s : State) : Kept s (s.judgeLag a) := by
  unfold State.judgeLag
  split
  · exact .refl s
  · split
    · refine Kept.trans (State.forAll_kept fun _ _ t => State.modInjector_kept ?_)
        (State.forAllFree_kept fun _ _ t => State.takeCause_kept _ _ _ t)
      exact { InjectorKept.refl _ with stroke := id }
    · exact .refl s

theorem State.handToFlow_kept (a : ArmId) (s : State) : Kept s (s.handToFlow a) := by
  unfold State.handToFlow
  split
  · exact (State.evalProfile_kept _ _).trans (State.formSplit_kept _ _)
  · exact State.formSplit_kept _ _

theorem State.handToInjectors_kept (a : ArmId) (s : State) : Kept s (s.handToInjectors a) :=
  Kept.trans (Kept.trans (State.modHead_kept fun l hl => State.writeDue_kept s l.v hl)
    (State.judgeLag_kept _ _)) (State.testAllFiring_kept _ _)

theorem State.intervalClose_kept (a : ArmId) (s : State) : Kept s (s.intervalClose a) := by
  have h3 : Kept s (s.modHead a s.closeAccounts) := State.modHead_kept fun l hl => s.closeAccounts_kept hl
  unfold State.intervalClose
  dsimp only
  split
  · exact h3
  · have h4 := h3.trans (State.actFindings_kept a ‹_› _)
    split
    · exact h4
    · rename_i l4 _
      have h5 : ∀ (d : ArmDef) (r : Recipe) (u : State),
          Kept u (if l4.inBody then u.modHead a (Load.shareAndAlarm d r) else u) := by
        intro d r u
        split
        · exact State.modHead_kept fun l hl =>
            .of_plain hl hl ⟨rfl, rfl, rfl, rfl, rfl, rfl, rfl, rfl⟩ ⟨rfl, rfl, rfl, rfl, rfl, rfl⟩
              ⟨rfl, rfl, rfl, rfl⟩ ⟨rfl, rfl, rfl⟩
        · exact .refl u
      have h6 := fun d r => ((h4.trans (h5 d r _)).trans (State.handToFlow_kept a _)).trans
        (State.handToInjectors_kept a _)
      split
      · exact (h6 _ _).trans (State.takeCause_kept _ _ _ _)
      · exact h6 _ _

/-- The record that enters ENDED: its identity and line stand, and it has its outcome and verdicts. -/
theorem State.concludeLoad_kept (s : State) (o : LoadOutcome) (surplus : Nat) {l : Load}
    (hl : l.state ≠ .ended) : LoadKept l (s.concludeLoad o surplus l) where
  number := rfl
  tag := rfl
  arm := rfl
  recipe := rfl
  rev := rfl
  preset := rfl
  amends := rfl
  line := ⟨rfl, rfl, rfl, rfl, rfl, rfl⟩
  mca := rfl
  ended := fun e => absurd e hl
  record := fun _ => by
    refine ⟨rfl, rfl, rfl, rfl, fun e he => ?_⟩
    obtain ⟨x, -, rfl⟩ := List.mem_map.mp he
    rfl
  carries := id

theorem State.enterEnded_kept (a : ArmId) (l : Load) (s : State) : Kept s (s.enterEnded a l) := by
  unfold State.enterEnded
  refine Kept.trans (Kept.trans (Kept.trans ?_ (State.modArm_kept fun x => ?_))
    (State.lowerReference_kept _ _)) (State.attend_kept _ _)
  · exact State.modHead_kept fun l hl => s.concludeLoad_kept _ _ hl
  · exact { ArmKept.refl x with }

theorem State.tryEnd_kept (a : ArmId) (s : State) : Kept s (s.tryEnd a) := by
  unfold State.tryEnd
  split
  · exact .refl s
  · split
    · exact State.enterEnded_kept _ _ _
    · exact .refl s

theorem State.testReadiness_kept (a : ArmId) (s : State) : Kept s (s.testReadiness a) := by
  unfold State.testReadiness
  split
  · exact .refl s
  · split
    · exact State.modArm_kept fun x => { ArmKept.refl x with }
    · exact .refl s

theorem State.beginCatchUp_kept (a : ArmId) (s : State) : Kept s (s.beginCatchUp a) := by
  unfold State.beginCatchUp
  split
  · refine Kept.trans (State.modArm_kept fun x => ?_) (State.testAllFiring_kept _ _)
    exact { ArmKept.refl x with }
  · exact .refl s

theorem State.finalClose_kept (a : ArmId) (s : State) : Kept s (s.finalClose a) := by
  unfold State.finalClose
  refine Kept.trans (Kept.trans (State.modHead_kept fun l hl => ?_) (State.beginCatchUp_kept _ _))
    (State.testReadiness_kept _ _)
  have h1 := s.netCloseLoad_kept true hl
  have hs : (s.netCloseLoad true l).state ≠ .ended := by rw [h1.2]; exact hl
  dsimp only
  refine (h1.1.trans ?_).trans (s.writeDue_kept _
    (l := { s.netCloseLoad true l with vc := (s.netCloseLoad true l).v }) hs)
  exact .of_plain hs hs ⟨rfl, rfl, rfl, rfl, rfl, rfl, rfl, rfl⟩ ⟨rfl, rfl, rfl, rfl, rfl, rfl⟩
    ⟨rfl, rfl, rfl, rfl⟩ ⟨rfl, rfl, rfl⟩

theorem State.completeSettle_kept (a : ArmId) (s : State) : Kept s (s.completeSettle a) := by
  have h2 : Kept s (State.finalClose a (s.modFlow a fun f =>
      { f with settleTimer := none, maxTimer := none, settleComplete := true })) :=
    (State.modFlow_kept _ _ _).trans (State.finalClose_kept _ _)
  unfold State.completeSettle
  dsimp only
  split
  · exact h2
  · have h3 := fun g => h2.trans (State.modFlow_kept a g _)
    split
    · exact ((h3 _).trans (State.takeCause_kept _ _ _ _)).trans (State.tryEnd_kept _ _)
    · exact (h3 _).trans (State.tryEnd_kept _ _)

/-! ### Pulses -/

theorem Load.credit_kept (m : Meter) (r : Role) {l : Load} (hl : l.state ≠ .ended) :
    LoadKept l (l.credit m r) := by
  cases r <;>
    exact .of_not_ended hl hl ⟨rfl, rfl, rfl, rfl, rfl, rfl, rfl, rfl⟩ ⟨rfl, rfl, rfl, rfl, rfl, rfl⟩
      ⟨rfl, rfl, rfl, rfl⟩ id id

theorem State.watchLeak_kept (a : ArmId) (m : MeterId) (s : State) : Kept s (s.watchLeak a m) := by
  unfold State.watchLeak
  dsimp only
  split
  · refine Kept.trans (State.modArm_kept fun x => ?_) (State.takeCause_kept _ _ _ _)
    exact { ArmKept.refl x with }
  · exact .refl s

theorem State.strayPulse_kept (a : ArmId) (r : Role) (m : MeterId) (s : State) :
    Kept s (s.strayPulse a r m) := by
  unfold State.strayPulse
  dsimp only
  refine Kept.trans (Kept.trans (State.modArm_kept fun x => ?_) (State.modArm_kept fun x => ?_))
    (State.watchLeak_kept _ _ _)
  · cases r <;> exact { ArmKept.refl x with }
  · exact { ArmKept.refl x with }

theorem State.updateRestart_kept (a : ArmId) (s : State) : Kept s (s.updateRestart a) := by
  have h1 : ∀ n : Nat, Kept s (s.modHead a fun l => { l with rstLeft := n }) := fun n =>
    State.modHead_kept fun l hl =>
      .of_plain hl hl ⟨rfl, rfl, rfl, rfl, rfl, rfl, rfl, rfl⟩ ⟨rfl, rfl, rfl, rfl, rfl, rfl⟩
        ⟨rfl, rfl, rfl, rfl⟩ ⟨rfl, rfl, rfl⟩
  unfold State.updateRestart
  split
  · exact .refl s
  · split
    · dsimp only
      split
      · exact ((h1 _).trans (State.snapDemand_kept _ _)).trans (State.formSplit_kept _ _)
      · exact h1 _
    · exact .refl s

theorem State.reportPulse_kept (a : ArmId) (r : Role) (m : MeterId) (settling : Bool) (s : State) :
    Kept s (s.reportPulse a r m settling) := by
  have h1 := s.updateRestart_kept a
  unfold State.reportPulse
  dsimp only
  split
  · exact h1
  · split
    · exact h1.trans (State.modFlow_kept _ _ _)
    · split
      · exact (h1.trans (State.modFlow_kept _ _ _)).trans (State.enterSettling_kept _ _ _)
      · exact h1.trans (State.modFlow_kept _ _ _)
    · split
      · exact h1.trans (State.modFlow_kept _ _ _)
      · exact h1
    all_goals exact h1

theorem State.closeIfDue_kept (a : ArmId) (s : State) : Kept s (s.closeIfDue a) := by
  unfold State.closeIfDue
  split
  · exact .refl s
  · dsimp only
    split
    · exact State.intervalClose_kept _ _
    · exact .refl s

theorem State.boundPulse_kept (a : ArmId) (r : Role) (m : MeterId) (s : State) :
    Kept s (s.boundPulse a r m) := by
  unfold State.boundPulse
  split
  · exact State.strayPulse_kept _ _ _ _
  · exact ((State.modHead_kept fun l hl => Load.credit_kept _ _ hl).trans (State.closeIfDue_kept _ _)).trans
      (State.reportPulse_kept _ _ _ _ _)

/-! ### START and STOP presses, ramp and timers -/

theorem State.takeStart_kept (a : ArmId) (l : Load) (s : State) : Kept s (s.takeStart a l) := by
  have h1 : Kept s (s.prepareStart a l) := by
    refine Kept.trans (State.modArm_kept fun x => ?_)
      (State.forAll_kept fun _ _ t => State.modInjector_kept ?_)
    · exact { ArmKept.refl x with }
    · exact { InjectorKept.refl _ with stroke := id }
  have h2 : Kept s ((s.prepareStart a l).moveStart a l) := by
    unfold State.moveStart
    split
    · refine (h1.trans (State.modHead_kept fun l hl => ?_)).trans (State.joinQueue_kept _ _)
      exact .of_plain hl (by simp) ⟨rfl, rfl, rfl, rfl, rfl, rfl, rfl, rfl⟩ ⟨rfl, rfl, rfl, rfl, rfl, rfl⟩
        ⟨rfl, rfl, rfl, rfl⟩ ⟨rfl, rfl, rfl⟩
    · exact h1.trans (State.enterFlowing_kept _ _ _)
  exact h2.trans (State.forAllFree_kept fun _ _ t => State.takeCause_kept _ _ _ t)

theorem State.pressStart_kept (a : ArmId) (s : State) : Kept s (s.pressStart a) := by
  unfold State.pressStart
  split
  · exact .refl s
  · split
    · split
      · exact State.takeStart_kept _ _ _
      · exact .refl s
    · split
      · exact State.takeResume_kept _ _ _
      · exact .refl s
    all_goals exact .refl s

theorem State.pressStop_kept (a : ArmId) (s : State) : Kept s (s.pressStop a) := by
  unfold State.pressStop
  split
  · exact State.takeCause_kept _ _ _ _
  · exact .refl s

theorem State.tickRamp_kept (a : ArmId) (s : State) : Kept s (s.tickRamp a) := by
  unfold State.tickRamp
  split
  · exact .refl s
  · dsimp only
    split
    · split
      · exact .refl s
      · exact (State.modFlow_kept _ _ _).trans (State.formSplit_kept _ _)
    · exact .refl s

theorem State.expireNoFlow_kept (a : ArmId) (r : Role) (s : State) : Kept s (s.expireNoFlow a r) := by
  unfold State.expireNoFlow
  split
  · exact (State.modFlow_kept _ _ _).trans (State.takeCause_kept _ _ _ _)
  · exact .refl s

theorem State.expireSettle_kept (a : ArmId) (s : State) : Kept s (s.expireSettle a) := by
  unfold State.expireSettle
  split
  · exact State.completeSettle_kept _ _
  · exact .refl s

theorem State.expireMaxSettle_kept (a : ArmId) (s : State) : Kept s (s.expireMaxSettle a) := by
  have h1 : Kept s (s.modFlow a fun f => { f with maxTimer := none }) := State.modFlow_kept _ _ _
  unfold State.expireMaxSettle
  dsimp only
  split
  · split
    · split
      · exact h1
      · exact h1.trans (State.takeCause_kept _ _ _ _)
    · exact h1
  · exact .refl s

/-! ### Injectors -/

theorem Injector.release_kept (j : Injector) : InjectorKept j j.release :=
  ⟨rfl, rfl, rfl, fun _ => ⟨rfl, rfl, rfl⟩⟩

theorem State.afterStroke_kept (ch : InjId) (s : State) : Kept s (s.afterStroke ch) := by
  unfold State.afterStroke
  split
  · exact .refl s
  · exact ((State.testFiring_kept _ _ _).trans (State.testReadiness_kept _ _)).trans (State.tryEnd_kept _ _)

theorem State.endPulse_kept (ch : InjId) (s : State) : Kept s (s.endPulse ch) := by
  unfold State.endPulse
  split
  · rename_i h
    simp only [Bool.and_eq_true, beq_iff_eq] at h
    refine State.modInjector_kept ⟨rfl, rfl, rfl, fun ⟨h1, h2, _⟩ => ⟨?_, ?_, rfl⟩⟩
    · rw [h.2] at h1; exact h1
    · rw [h.2] at h2; exact h2
  · exact .refl s

theorem State.raiseFail_kept (ch : InjId) (n : Nat) (s : State) : Kept s (s.raiseFail ch n) := by
  unfold State.raiseFail
  split
  · exact .refl s
  · split
    · exact State.takeCause_kept _ _ _ _
    · exact .refl s

/-! ### Header pressure -/

theorem State.losePressure_kept (s : State) : Kept s s.losePressure :=
  (State.recomputeGrants_kept _ _).trans (State.forAll_kept fun a _ t => by
    unfold State.raisePressure
    split
    · exact State.takeCause_kept _ _ _ _
    · exact .refl t)

theorem State.regainPressure_kept (s : State) : Kept s s.regainPressure :=
  (State.recomputeGrants_kept _ _).trans (State.evaluateQueue_kept _)

end Sys2Proof.Machine
end

