-- ==== Sys2Proof/Laws/PerInstr.lean ====
section
/-! SUPPORT. Statements about the commands as syntax, one lemma for each command. -/

/-! ### RequestTokens: the tokens a command is sent with bring it back (R200) -/

/-- The tokens a well-formed command is sent with are those of that command, whatever the positions of the
rotary switches. -/
def Sys2Proof.Laws.RequestTokens.Statement (i : Sys2Proof.Instr) : Prop :=
  ∀ (sw : Sys2Proof.Switches) (ts : List Sys2Proof.Chars), i.wellFormed = true →
    Sys2Proof.requestTokens i = some ts → Sys2Proof.requestCommand (Sys2Proof.switchesOf sw i) ts = i

namespace Sys2Proof.Laws.RequestTokens

/-- A first token that is a request word brings that request. -/
theorem requestCommand_of_word {sw : Switches} {w : Chars} {ts : List Chars}
    {mk : List Chars → Switches → Instr} (h : requestOf? w = some mk) :
    requestCommand sw (w :: ts) = mk ts sw := by
  simp only [requestCommand, h]

theorem authorize (fields : List Chars) : Statement (.authorize fields) := by
  intro sw ts _ h
  obtain rfl := Option.some.inj h
  exact requestCommand_of_word (w := "AUTHORIZE".toList) (mk := fun f _ => .authorize f) rfl

theorem amend (fields : List Chars) : Statement (.amend fields) := by
  intro sw ts _ h
  obtain rfl := Option.some.inj h
  exact requestCommand_of_word (w := "AMEND".toList) (mk := fun f _ => .amend f) rfl

theorem cancel (fields : List Chars) : Statement (.cancel fields) := by
  intro sw ts _ h
  obtain rfl := Option.some.inj h
  exact requestCommand_of_word (w := "CANCEL".toList) (mk := fun f _ => .cancel f) rfl

theorem hold (fields : List Chars) : Statement (.hold fields) := by
  intro sw ts _ h
  obtain rfl := Option.some.inj h
  exact requestCommand_of_word (w := "HOLD".toList) (mk := fun f _ => .hold f) rfl

theorem resume (fields : List Chars) : Statement (.resume fields) := by
  intro sw ts _ h
  obtain rfl := Option.some.inj h
  exact requestCommand_of_word (w := "RESUME".toList) (mk := fun f _ => .resume f) rfl

theorem endLoad (fields : List Chars) : Statement (.endLoad fields) := by
  intro sw ts _ h
  obtain rfl := Option.some.inj h
  exact requestCommand_of_word (w := "END".toList) (mk := fun f _ => .endLoad f) rfl

theorem getLoad (fields : List Chars) : Statement (.getLoad fields) := by
  intro sw ts _ h
  obtain rfl := Option.some.inj h
  exact requestCommand_of_word (w := "GET_LOAD".toList) (mk := fun f _ => .getLoad f) rfl

theorem retireLoad (fields : List Chars) : Statement (.retireLoad fields) := by
  intro sw ts _ h
  obtain rfl := Option.some.inj h
  exact requestCommand_of_word (w := "RETIRE_LOAD".toList) (mk := fun f _ => .retireLoad f) rfl

theorem listLoads (fields : List Chars) : Statement (.listLoads fields) := by
  intro sw ts _ h
  obtain rfl := Option.some.inj h
  exact requestCommand_of_word (w := "LIST_LOADS".toList) (mk := fun f _ => .listLoads f) rfl

theorem storeRecipe (fields : List Chars) : Statement (.storeRecipe fields) := by
  intro sw ts _ h
  obtain rfl := Option.some.inj h
  exact requestCommand_of_word (w := "STORE_RECIPE".toList) (mk := fun f _ => .storeRecipe f) rfl

theorem getRecipe (fields : List Chars) : Statement (.getRecipe fields) := by
  intro sw ts _ h
  obtain rfl := Option.some.inj h
  exact requestCommand_of_word (w := "GET_RECIPE".toList) (mk := fun f _ => .getRecipe f) rfl

theorem retireRecipe (fields : List Chars) : Statement (.retireRecipe fields) := by
  intro sw ts _ h
  obtain rfl := Option.some.inj h
  exact requestCommand_of_word (w := "RETIRE_RECIPE".toList) (mk := fun f _ => .retireRecipe f) rfl

theorem listRecipes (fields : List Chars) : Statement (.listRecipes fields) := by
  intro sw ts _ h
  obtain rfl := Option.some.inj h
  exact requestCommand_of_word (w := "LIST_RECIPES".toList) (mk := fun f _ => .listRecipes f) rfl

theorem setArm (fields : List Chars) : Statement (.setArm fields) := by
  intro sw ts _ h
  obtain rfl := Option.some.inj h
  exact requestCommand_of_word (w := "SET_ARM".toList) (mk := fun f _ => .setArm f) rfl

theorem getArm (fields : List Chars) : Statement (.getArm fields) := by
  intro sw ts _ h
  obtain rfl := Option.some.inj h
  exact requestCommand_of_word (w := "GET_ARM".toList) (mk := fun f _ => .getArm f) rfl

theorem decommissionArm (fields : List Chars) : Statement (.decommissionArm fields) := by
  intro sw ts _ h
  obtain rfl := Option.some.inj h
  exact requestCommand_of_word (w := "DECOMMISSION_ARM".toList) (mk := fun f _ => .decommissionArm f) rfl

theorem getArmStatus (fields : List Chars) : Statement (.getArmStatus fields) := by
  intro sw ts _ h
  obtain rfl := Option.some.inj h
  exact requestCommand_of_word (w := "GET_ARM_STATUS".toList) (mk := fun f _ => .getArmStatus f) rfl

theorem setMeter (fields : List Chars) : Statement (.setMeter fields) := by
  intro sw ts _ h
  obtain rfl := Option.some.inj h
  exact requestCommand_of_word (w := "SET_METER".toList) (mk := fun f _ => .setMeter f) rfl

theorem getMeter (fields : List Chars) : Statement (.getMeter fields) := by
  intro sw ts _ h
  obtain rfl := Option.some.inj h
  exact requestCommand_of_word (w := "GET_METER".toList) (mk := fun f _ => .getMeter f) rfl

theorem setInjector (fields : List Chars) : Statement (.setInjector fields) := by
  intro sw ts _ h
  obtain rfl := Option.some.inj h
  exact requestCommand_of_word (w := "SET_INJECTOR".toList) (mk := fun f _ => .setInjector f) rfl

theorem getInjector (fields : List Chars) : Statement (.getInjector fields) := by
  intro sw ts _ h
  obtain rfl := Option.some.inj h
  exact requestCommand_of_word (w := "GET_INJECTOR".toList) (mk := fun f _ => .getInjector f) rfl

theorem setHeader (fields : List Chars) : Statement (.setHeader fields) := by
  intro sw ts _ h
  obtain rfl := Option.some.inj h
  exact requestCommand_of_word (w := "SET_HEADER".toList) (mk := fun f _ => .setHeader f) rfl

theorem getHeader (fields : List Chars) : Statement (.getHeader fields) := by
  intro sw ts _ h
  obtain rfl := Option.some.inj h
  exact requestCommand_of_word (w := "GET_HEADER".toList) (mk := fun f _ => .getHeader f) rfl

theorem setCause (fields : List Chars) : Statement (.setCause fields) := by
  intro sw ts _ h
  obtain rfl := Option.some.inj h
  exact requestCommand_of_word (w := "SET_CAUSE".toList) (mk := fun f _ => .setCause f) rfl

theorem getCauses (fields : List Chars) : Statement (.getCauses fields) := by
  intro sw ts _ h
  obtain rfl := Option.some.inj h
  exact requestCommand_of_word (w := "GET_CAUSES".toList) (mk := fun f _ => .getCauses f) rfl

theorem getPermissives (fields : List Chars) : Statement (.getPermissives fields) := by
  intro sw ts _ h
  obtain rfl := Option.some.inj h
  exact requestCommand_of_word (w := "GET_PERMISSIVES".toList) (mk := fun f _ => .getPermissives f) rfl

theorem resetArm (fields : List Chars) : Statement (.resetArm fields) := by
  intro sw ts _ h
  obtain rfl := Option.some.inj h
  exact requestCommand_of_word (w := "RESET_ARM".toList) (mk := fun f _ => .resetArm f) rfl

theorem resetLane (fields : List Chars) : Statement (.resetLane fields) := by
  intro sw ts _ h
  obtain rfl := Option.some.inj h
  exact requestCommand_of_word (w := "RESET_LANE".toList) (mk := fun f _ => .resetLane f) rfl

theorem getAttention (fields : List Chars) : Statement (.getAttention fields) := by
  intro sw ts _ h
  obtain rfl := Option.some.inj h
  exact requestCommand_of_word (w := "GET_ATTENTION".toList) (mk := fun f _ => .getAttention f) rfl

theorem clearAttention (fields : List Chars) : Statement (.clearAttention fields) := by
  intro sw ts _ h
  obtain rfl := Option.some.inj h
  exact requestCommand_of_word (w := "CLEAR_ATTENTION".toList) (mk := fun f _ => .clearAttention f) rfl

theorem setAttentionEnable (fields : List Chars) : Statement (.setAttentionEnable fields) := by
  intro sw ts _ h
  obtain rfl := Option.some.inj h
  exact requestCommand_of_word (w := "SET_ATTENTION_ENABLE".toList) (mk := fun f _ => .setAttentionEnable f) rfl

theorem setLink (fields : List Chars) : Statement (.setLink fields) := by
  intro sw ts _ h
  obtain rfl := Option.some.inj h
  exact requestCommand_of_word (w := "SET_LINK".toList) (mk := fun f _ => .setLink f) rfl

theorem getIdent (fields : List Chars) : Statement (.getIdent fields) := by
  intro sw ts _ h
  obtain rfl := Option.some.inj h
  exact requestCommand_of_word (w := "GET_IDENT".toList) (mk := fun f _ => .getIdent f) rfl

theorem restart (fields : List Chars) (switches : Switches) : Statement (.restart fields switches) := by
  intro sw ts _ h
  obtain rfl := Option.some.inj h
  exact requestCommand_of_word (w := "RESTART".toList) (mk := fun f sw => .restart f sw) rfl

theorem factoryClear (fields : List Chars) : Statement (.factoryClear fields) := by
  intro sw ts _ h
  obtain rfl := Option.some.inj h
  exact requestCommand_of_word (w := "FACTORY_CLEAR".toList) (mk := fun f _ => .factoryClear f) rfl

theorem unknownRequest (tokens : List Chars) : Statement (.unknownRequest tokens) := by
  intro sw ts hw h
  have hu : unknownWord tokens = true := by
    simp only [Instr.wellFormed, Bool.and_eq_true] at hw
    exact hw.2
  obtain rfl : tokens = ts := Option.some.inj h
  cases tokens with
  | nil => rfl
  | cons w rest =>
    simp only [unknownWord, Option.isNone_iff_eq_none] at hu
    simp only [requestCommand, hu]

theorem invalidFrame (frame : Chars) : Statement (.invalidFrame frame) := by
  intro sw ts _ h
  cases h

theorem frameTimeout : Statement .frameTimeout := by
  intro sw ts _ h
  cases h

theorem startPress (arm : ArmId) : Statement (.startPress arm) := by
  intro sw ts _ h
  cases h

theorem stopPress (arm : ArmId) : Statement (.stopPress arm) := by
  intro sw ts _ h
  cases h

theorem meterPulse (meter : MeterId) : Statement (.meterPulse meter) := by
  intro sw ts _ h
  cases h

theorem temperatureSample (meter : MeterId) (value : Int) : Statement (.temperatureSample meter value) := by
  intro sw ts _ h
  cases h

theorem flowReading (meter : MeterId) : Statement (.flowReading meter) := by
  intro sw ts _ h
  cases h

theorem rampTick (arm : ArmId) : Statement (.rampTick arm) := by
  intro sw ts _ h
  cases h

theorem permissiveInputChange (arm : ArmId) (input : PermId) (level : Contact) : Statement (.permissiveInputChange arm input level) := by
  intro sw ts _ h
  cases h

theorem emergencyStopActive (lane : LaneId) : Statement (.emergencyStopActive lane) := by
  intro sw ts _ h
  cases h

theorem emergencyStopRelease (lane : LaneId) : Statement (.emergencyStopRelease lane) := by
  intro sw ts _ h
  cases h

theorem headerPressureInputChange (level : Contact) : Statement (.headerPressureInputChange level) := by
  intro sw ts _ h
  cases h

theorem calibrationSwitchChange (level : Contact) : Statement (.calibrationSwitchChange level) := by
  intro sw ts _ h
  cases h

theorem proofArrival (injector : InjId) : Statement (.proofArrival injector) := by
  intro sw ts _ h
  cases h

theorem proofInputOpen (injector : InjId) : Statement (.proofInputOpen injector) := by
  intro sw ts _ h
  cases h

theorem supplyLowInputChange (injector : InjId) (low : Bool) : Statement (.supplyLowInputChange injector low) := by
  intro sw ts _ h
  cases h

theorem pulseWidthExpiry (injector : InjId) : Statement (.pulseWidthExpiry injector) := by
  intro sw ts _ h
  cases h

theorem proofTimerExpiry (injector : InjId) : Statement (.proofTimerExpiry injector) := by
  intro sw ts _ h
  cases h

theorem noFlowTimerExpiry (arm : ArmId) (role : Role) : Statement (.noFlowTimerExpiry arm role) := by
  intro sw ts _ h
  cases h

theorem settleTimerExpiry (arm : ArmId) : Statement (.settleTimerExpiry arm) := by
  intro sw ts _ h
  cases h

theorem maximumSettleExpiry (arm : ArmId) : Statement (.maximumSettleExpiry arm) := by
  intro sw ts _ h
  cases h

theorem linkTimeoutExpiry : Statement .linkTimeoutExpiry := by
  intro sw ts _ h
  cases h

theorem powerRestore (inputs : Inputs) : Statement (.powerRestore inputs) := by
  intro sw ts _ h
  cases h

theorem admission : Statement .admission := by
  intro sw ts _ h
  cases h

theorem loadEntersEnded (arm : ArmId) : Statement (.loadEntersEnded arm) := by
  intro sw ts _ h
  cases h

theorem frameStartCharacter : Statement .frameStartCharacter := by
  intro sw ts _ h
  cases h

theorem frameLengthLimit : Statement .frameLengthLimit := by
  intro sw ts _ h
  cases h

theorem supplyLoss : Statement .supplyLoss := by
  intro sw ts _ h
  cases h

theorem responseSent : Statement .responseSent := by
  intro sw ts _ h
  cases h

end Sys2Proof.Laws.RequestTokens
end

