-- ==== Sys2Proof/Laws/Requests.lean ====
section
/-! SUPPORT. What taking an event and taking a request can do, said once. -/

namespace Sys2Proof.Machine

/-! ### Events -/

theorem event_powered {f : State → State} {s : State} (h : s.powered = true) : event f s = .next (f s) := by
  simp [event, h]

theorem event_unpowered {f : State → State} {s : State} (h : s.powered = false) : event f s = .next s := by
  simp [event, h]

/-- An event answers a next state: what it does where there is supply, the state as it was where there is
none (R206). -/
theorem event_cases {f : State → State} {s t : State} (h : event f s = .next t) :
    (s.powered = true ∧ t = f s) ∨ (s.powered = false ∧ t = s) := by
  cases hp : s.powered
  · rw [event_unpowered hp] at h
    injection h with h
    exact .inr ⟨rfl, h.symm⟩
  · rw [event_powered hp] at h
    injection h with h
    exact .inl ⟨rfl, h.symm⟩

/-! ### Requests -/

theorem Reply.finish_running (before after : State) (r : Response) :
    Reply.finish before.link.address { state := after, response := r, stopsTimer := false } =
      before.answered after r := by
  simp [Reply.finish, State.answered, State.modLink, timerAfter]

theorem Reply.finish_stopped (before after : State) (r : Response) :
    Reply.finish before.link.address { state := after, response := r, stopsTimer := true } =
      before.answeredStopped after r := by
  simp [Reply.finish, State.answeredStopped, State.modLink, timerAfter]

variable {α : Type} {parse : Except Code α} {refuse : α → State → Option Code} {accept : α → State → State}
  {answer : α → State → State → Response} {s t : State} {q : α} {c : Code}

/-- A form or range that fails decides the refusal, and nothing else changes (R200). -/
theorem request_misformed (hs : s.ready) (hp : parse = .error c) :
    request parse refuse accept answer s = .next (s.answered s (.no c)) := by
  obtain ⟨h1, h2⟩ := hs
  simp [request, event, h1, State.takeFrame, h2, answerRequest, hp, Reply.finish_running]

/-- A check against the state that fails decides the refusal, and nothing else changes (R200). -/
theorem request_refused (hs : s.ready) (hp : parse = .ok q) (hr : refuse q s = some c) :
    request parse refuse accept answer s = .next (s.answered s (.no c)) := by
  obtain ⟨h1, h2⟩ := hs
  simp [request, event, h1, State.takeFrame, h2, answerRequest, hp, hr, Reply.finish_running]

/-- A request that passes every check is accepted. -/
theorem request_accepted (hs : s.ready) (hp : parse = .ok q) (hr : refuse q s = none) :
    request parse refuse accept answer s =
      .next (s.answered (accept q s) (answer q s (accept q s))) := by
  obtain ⟨h1, h2⟩ := hs
  simp [request, event, h1, State.takeFrame, h2, answerRequest, hp, hr, Reply.finish_running]

/-- R199, R206: without supply, and while a response is sent, a request is lost. -/
theorem request_lost (h : s.powered = false ∨ s.link.sending.isSome = true) :
    request parse refuse accept answer s = .next s := by
  unfold request
  rcases h with h | h
  · exact event_unpowered h
  · cases hp : s.powered
    · exact event_unpowered hp
    · rw [event_powered hp]
      simp [State.takeFrame, h]

/-- Everything a request can do: it is lost, refused with nothing changed, or accepted. -/
theorem request_cases (h : request parse refuse accept answer s = .next t) :
    ((s.powered = false ∨ s.link.sending.isSome = true) ∧ t = s) ∨
    (s.ready ∧ ∃ c, t = s.answered s (.no c) ∧
      (parse = .error c ∨ ∃ q, parse = .ok q ∧ refuse q s = some c)) ∨
    (s.ready ∧ ∃ q, parse = .ok q ∧ refuse q s = none ∧
      t = s.answered (accept q s) (answer q s (accept q s))) := by
  by_cases hs : s.ready
  · right
    cases hp : parse with
    | error c =>
      rw [request_misformed hs hp] at h
      injection h with h
      exact .inl ⟨hs, c, h.symm, .inl rfl⟩
    | ok q =>
      cases hr : refuse q s with
      | some c =>
        rw [request_refused hs hp hr] at h
        injection h with h
        exact .inl ⟨hs, c, h.symm, .inr ⟨q, rfl, hr⟩⟩
      | none =>
        rw [request_accepted hs hp hr] at h
        injection h with h
        exact .inr ⟨hs, q, rfl, hr, h.symm⟩
  · left
    have hl : s.powered = false ∨ s.link.sending.isSome = true := by
      unfold State.ready at hs
      cases h1 : s.powered
      · exact .inl rfl
      · cases h2 : s.link.sending
        · exact absurd ⟨h1, h2⟩ hs
        · exact .inr rfl
    rw [request_lost hl] at h
    injection h with h
    exact ⟨hl, h.symm⟩

/-- A report changes nothing but the link. -/
theorem report_cases {answer : α → State → Response} (h : report parse answer s = .next t) :
    ((s.powered = false ∨ s.link.sending.isSome = true) ∧ t = s) ∨
    (s.ready ∧ ∃ r, t = s.answered s r) := by
  rcases request_cases h with h | ⟨hs, c, ht, -⟩ | ⟨hs, q, -, -, ht⟩
  · exact .inl h
  · exact .inr ⟨hs, _, ht⟩
  · exact .inr ⟨hs, _, ht⟩

/-! ### Checks in order -/

@[simp] theorem firstFailure_nil : firstFailure [] = none := rfl

@[simp] theorem firstFailure_cons (b : Bool) (c : Code) (l : List (Bool × Code)) :
    firstFailure ((b, c) :: l) = if b then some c else firstFailure l := rfl

/-- Every check passes exactly where none fails. -/
theorem firstFailure_eq_none {l : List (Bool × Code)} :
    firstFailure l = none ↔ ∀ x ∈ l, x.1 = false := by
  induction l with
  | nil => simp
  | cons x xs ih =>
    obtain ⟨b, c⟩ := x
    cases b <;> simp [ih]

end Sys2Proof.Machine
end

