-- ==== Sys2Proof/Tests/Slice0.lean ====
section
/-! SUPPORT. Tests of the model on fixed values: the checks of WellFormed, the manual's worked examples, and
for every statement of Certificates/Slice0 a state and operands that meet its hypotheses. -/

-- The tests are elaborated one after the other: each evaluation in the kernel waits for those before it.
set_option Elab.async false

namespace Sys2Proof.Tests

open Machine

/-! ### A small bench: one arm, two meters, one injector, two recipes -/

/-- The tokens of a body. -/
def words (t : String) : List Chars := tokens t.toList

/-- The arm of section 5.12, with the default limits of Table 3.1. -/
def benchDef : ArmDef :=
  { noArmDef with
    lane := 0, baseMeter := 0, ethMeter := some 1, injectors := [0], qMax := 2400, fsBase := 3000
    fsEth := 600, sMax := 2500, eMin := 30, w := 10, a := 12, settle := 3, maxSettle := 30, noFlow := 8
    rstFlow := 500, rstVol := 100, leak := 20, resLimit := 5, devCount := 5, tMin := 5, lag := 4
    catchUp := 2, perms := (Vector.replicate 8 none).set 0 (some { level := .opened, safety := true }) }

def benchArm : Arm := { factoryArm with defn := some benchDef, permissive := some true }

def benchRecipe : Recipe :=
  { code := 7, rev := 0, name := none, r := 1000, tol := 50, flush := 150, h := 400
    profile := [{ kind := .del, vol := 0, limit := 600, rate := 300 }]
    adds := [{ id := 1, dose := 300, tol := 10 }], retiring := false, refs := 1 }

def plainRecipe : Recipe := { benchRecipe with code := 8, r := 0, adds := [], refs := 0 }

def benchEntry : AddEntry :=
  { id := 1, dose := 300, tol := 10, inj := 0, due := 2, fired := 1, proven := 0, missed := 0, consec := 0
    verdict := none }

/-- Load 5 of the bench, of 6000 L, in a state and phase. -/
def benchLoad (st : LoadState) (ph : Phase) : Load :=
  { number := 5, tag := none, arm := 0, recipe := 7, rev := 0, preset := 6000, amends := 0, state := st
    phase := ph, admitFrom := none, bt := 5400000, et := 600000, adds := [benchEntry]
    base := Account.zero, eth := Account.zero, v := 0, va := 0, ea := 0, db := 5850000, rb := 1026
    share := 0, dev := 0, alarms := 0, peak := 0, vc := 0, holds := [], holdDetails := [], resumes := 0
    notices := [], stop1 := none, stop2 := none, escalated := false, flushInc := false, rstLeft := 0
    step := 1, pendingOut := none, mca := 0, mce := 0, outcome := none, frac := none
    ethVerdict := none, overrun := none }

/-- The module with the bench's arm and recipes, its calibration switch closed, and the records given. -/
def bench (ls : List Load) : State :=
  { State.reset with
    arms := State.reset.arms.set 0 benchArm
    recipes := [benchRecipe, plainRecipe]
    loads := ls
    calibration := .closed }

/-- The bench with its arm changed. -/
def benchWith (f : Arm → Arm) (ls : List Load) : State := (bench ls).modArm 0 f

/-- The state after a command. -/
def after (c : Instr) (s : State) : State :=
  match exec c s with
  | .next t => t
  | .fault _ | .refused _ => s

/-- The body of the response being sent. -/
def answer (s : State) : Option Chars := s.link.sending.map fun x => x.response.body

/-! ### WellFormed refuses -/

theorem test_token_with_space_refused : (Instr.hold ["LOAD= 1".toList]).wellFormed = false := by decide
theorem test_token_with_start_refused : (Instr.hold ["LOAD=@".toList]).wellFormed = false := by decide
theorem test_token_not_ascii_refused : (Instr.hold [['é']]).wellFormed = false := by decide
theorem test_empty_token_refused : (Instr.hold [[]]).wellFormed = false := by decide
theorem test_long_request_refused : (Instr.hold [List.replicate 508 'A']).wellFormed = false := by
  decide +kernel
theorem test_longest_request_taken : (Instr.hold [List.replicate 507 'A']).wellFormed = true := by
  decide +kernel
theorem test_unknown_with_request_word_refused :
    (Instr.unknownRequest (words "HOLD LOAD=1")).wellFormed = false := by decide +kernel
theorem test_invalid_frame_with_start_refused : (Instr.invalidFrame ['0', '@']).wellFormed = false := by decide
theorem test_invalid_frame_with_return_refused : (Instr.invalidFrame ['\r']).wellFormed = false := by decide
theorem test_invalid_frame_too_long_refused :
    (Instr.invalidFrame (List.replicate 519 '0')).wellFormed = false := by decide +kernel

/-! ### Frames (section 10.1) -/

/-- The check value that is published for this generator and start value. -/
theorem test_crc_of_digits : crc16 "123456789".toList = 0x29B1#16 := by decide +kernel

theorem test_check_in_either_case :
    frameBody? 1 ("01X".toList ++ checkDigits (crc16 "01X".toList)) = some ['X'] ∧
    frameBody? 1 ("01X".toList ++ (checkDigits (crc16 "01X".toList)).map Char.toLower) = some ['X'] := by
  decide +kernel

/-- The frame of section 10.1, example: address 05, GET_LOAD. -/
theorem test_frame_of_the_manual :
    frameCommand 5 State.reset.link.switches (frameInside 5 "GET_LOAD LOAD=240117".toList) =
      .getLoad ["LOAD=240117".toList] := by decide +kernel

theorem test_spaces_between_tokens_run_together : tokens "A  B ".toList = [['A'], ['B']] := by decide
theorem test_words_are_exact : requestOf? "hold".toList = none ∧ requestOf? "HOL".toList = none := by
  constructor <;> rfl

theorem test_no_word_spells_a_command : decodeTableWord 16 0 = none := rfl
theorem test_placed_word_leaves_the_queue : (bench []).withFetchWord 16 0 = bench [] := rfl

/-! ### Forms and ranges -/

theorem test_load_number_bounds :
    parseLoad ["LOAD=0".toList] = .error .range ∧ parseLoad ["LOAD=1".toList] = .ok 1 ∧
    parseLoad ["LOAD=999999".toList] = .ok 999999 ∧ parseLoad ["LOAD=1000000".toList] = .error .range ∧
    parseLoad ["LOAD=-1".toList] = .error .format := ⟨rfl, rfl, rfl, rfl, rfl⟩

/-- The example of section 2.2. -/
theorem test_store_of_the_manual :
    (parseStore (words "CODE=12 NAME=E10 R=1000 FLUSH=150 STEP1=DEL,0,600,300 STEP2=DEL,200,2400,400 STEP3=REM,300,800,0 ADD1=4,300,10")).toOption.map
      (fun x => (x.tol, x.h, x.profile.length, x.adds)) =
      some (50, 400, 3, [{ id := 4, dose := 300, tol := 10 }]) := by decide +kernel

theorem test_store_gap_in_steps :
    (parseStore (words "CODE=12 R=0 FLUSH=0 STEP1=DEL,0,600,300 STEP3=REM,300,800,0")).toOption = none := by
  decide +kernel

theorem test_set_arm_defaults :
    (parseSetArm (words "ARM=3 LANE=2 BMETER=M5 QMAX=300")).toOption.map
      (fun q => (q.arm, q.defn.lane, q.defn.baseMeter, q.defn.rstFlow, q.defn.fsEth)) =
      some (2, 1, 4, 300, 600) := by decide +kernel

/-! ### The manual's arithmetic -/

/-- Table 5.2. -/
theorem test_targets :
    (ethTarget 9000 1000, baseTarget 9000 1000, bodyEnd 9000 150 12, closeAhead 9000 12) =
      (900000, 8100000, 8850000, 8988000) ∧
    (ethTarget 3001 1505, baseTarget 3001 1505, bodyEnd 3001 0 12) = (451651, 2549349, 2989000) := by decide

/-- Section 5.3. -/
theorem test_body_share : bodyShare 900000 0 8850000 0 = 1017 := by decide

/-- Table 5.3. -/
theorem test_share_command :
    [0, 167, 4679, -831, 60000, -45000].map (fun d => shareCommand 1017 d 400 2500) =
      [1017, 1021, 1133, 997, 2500, 0] := by decide

/-- Section 5.12. -/
theorem test_ethanol_line :
    ethLine 900000 0 8850000 0 10004 = 1017 ∧ ethLine 900000 0 8850000 0 4000000 = 406779 ∧
    ethLine 900000 0 8850000 0 8988010 = 900000 := by decide

/-- Section 3.7. -/
theorem test_valve_scaling :
    [(271, 600), (2129, 3000), (600, 600), (700, 600), (1, 3000), (0, 3000)].map
      (fun x => valveCommand x.1 x.2) = [1850, 2906, 4095, 4095, 1, 0] := by decide

/-- Section 4.8, VCF at several temperatures. -/
theorem test_vcf :
    (vcf 1200 234, vcf 1105 233, vcf 1105 (-33), vcf 1200 (-52), vcf 2000 600) =
      (989920, 990828, 1020221, 1024240, 910000) := by decide

/-- Section 4.8, gross volume at each pulse. -/
theorem test_gross :
    [1, 40, 997, 998, 250000].map (pulseVolume { factoryMeter with mf := 10025 }) =
      [10, 401, 9994, 10004, 2506250] := by decide

/-- Section 4.8, the temperature average. -/
theorem test_mean :
    (meanHalfUp [231, 233, 236], meanHalfUp [231, 233, 236, 238], meanHalfUp [233, 236, 238, 240]) =
      (233, 235, 237) := by decide

/-- Section 4.8, net volume with carry: the first and the last close. -/
theorem test_net_close :
    let m := { factoryMeter with beta := 1200 }
    let c := Account.netClose m 234 { Account.zero with pulses := 1000, gross := 10000 }
    (c.net, c.carry, c.closed) = (9899, 200000, 1000) ∧
    let e := Account.netClose m 234
      { pulses := 5000, gross := 50000, net := 39596, carry := 800000, temp := 234, closed := 4000 }
    (e.net, e.carry) = (49496, 0) := by decide

/-- Section 4.8, the first flow reading. -/
theorem test_flow_reading :
    let m := Meter.read { factoryMeter with mf := 10025, window := 1995 }
    (m.qAvg, m.residue, m.window) = (2399, 87500, 0) := by decide

/-- Section 6.5, the split under a grant of 200. -/
theorem test_split :
    splitFlow 2400 1133 271 (some 200) = 1765 ∧ splitFlow 2400 1133 271 (some 271) = 2400 ∧
    splitFlow 2400 0 0 none = 2400 := by decide

/-- Section 7.7, filling with leftovers, and the smaller case. -/
theorem test_filling :
    (fillGrants 600 [⟨2, 271, 0⟩, ⟨4, 300, 0⟩, ⟨0, 91, 0⟩, ⟨6, 250, 0⟩]).map (·.grant) = [170, 170, 91, 169] ∧
    (fillGrants 600 [⟨0, 300, 0⟩, ⟨1, 250, 0⟩, ⟨2, 200, 0⟩]).map (·.grant) = [200, 200, 200] := by decide

/-- Section 8.10. -/
theorem test_strokes_due :
    [2000004, 2040008, 5988003].map (fun v => strokesDue v 300 1000) = [60, 61, 179] := by decide

/-- Section 6.10: the steps taken at 0, at 200,006 and at 5,700,008 mL of 6000 L. -/
theorem test_profile :
    let p : List Step := [⟨.del, 0, 600, 300⟩, ⟨.del, 200, 2400, 400⟩, ⟨.rem, 300, 800, 0⟩]
    takeSteps 6000 0 p (0, 0, 1, false) = (600, 300, 2, true) ∧
    takeSteps 6000 200006 (p.drop 1) (600, 300, 2, false) = (2400, 400, 3, true) ∧
    takeSteps 6000 5700008 (p.drop 2) (2400, 400, 3, false) = (800, 0, 4, true) := by decide

/-- Sections 6.10 and 6.11: one ramp step, and the last one to the target. -/
theorem test_ramp : rampMove 300 600 0 = 30 ∧ rampMove 400 500 480 = 500 ∧ rampMove 0 800 2400 = 800 := by
  decide

/-! ### Single steps -/

theorem test_empty_queue_idles : step (bench []) = .next (bench []) := rfl

theorem test_restart_restores_power : (after (.restart [] State.reset.link.switches) (bench [])).attention.pending[7] = true := by
  decide +kernel

theorem test_retire_answers_the_count :
    answer (after (.retireLoad ["LOAD=5".toList]) (bench [{ benchLoad .ended .flush with outcome := some .complete }])) =
      some "OK LOAD=5 COUNT=0".toList := by decide +kernel

theorem test_authorize_answers_the_position :
    answer (after (.authorize (words "PRESET=6000 LOAD=6 ARM=1 RECIPE=8")) (bench [benchLoad .flowing .body])) =
      some "OK LOAD=6 STATE=AUTHORIZED POS=2".toList := by decide +kernel

theorem test_unknown_request : answer (after (.unknownRequest []) (bench [])) = some "NO UNKNOWN".toList := by
  decide +kernel

theorem test_response_over : (after .responseSent (after (.unknownRequest []) (bench []))).link.sending = none := by
  decide +kernel

/-- R9: the header leaves with the hold, and the valves close. -/
theorem test_stop_press_holds :
    let s := { bench [benchLoad .flowing .body] with
      header := { factoryHeader with parts := [⟨0, 100, 100⟩] } }
    let t := after (.stopPress 0) s
    (t.head 0).map (·.state) = some .held ∧ t.header.parts = [] ∧ t.attention.pending[1] = true := by
  decide +kernel

/-- R194, R196: a trip on an arm that was LOCKED shuts its lane. -/
theorem test_second_leak_shuts_the_lane :
    let t := after (.meterPulse 0)
      (benchWith (fun x => { x with locked := true, lockRecord := some (.leakBy, .meter 0)
                                    strayBase := 2000 }) [])
    (t.lane 0).shut = true ∧ (t.lane 0).shutCause = some .leakBy ∧ (t.arm 0).strayVol = 0 := by decide +kernel

/-- R190: a detail taken as a NOTE counts in the resume test once its code is in the hold set. -/
theorem test_detail_of_a_note_counts :
    let s := (bench [{ benchLoad .held .body with holds := [.probeFault], holdDetails := [] }])
    let t := after (.temperatureSample 0 601) s
    s.causes[Cause.probeFault.index] = .note ∧ (t.head 0).map (·.holdDetails) = some [(.probeFault, .meter 0)] ∧
    ((after (.startPress 0) t).head 0).map (·.state) = some .held ∧
    ((after (.startPress 0) s).head 0).map (·.state) ≠ some .held := by decide +kernel

/-- R173: a trip switches the solenoid off, and the stroke in flight keeps its proof timer. -/
theorem test_trip_cuts_the_stroke :
    let s := (bench [benchLoad .flowing .body]).modInjector 0
      (Injector.fire (benchLoad .flowing .body))
    let t := after (.emergencyStopActive 0) s
    (t.injector 0).state = .awaitProof ∧ (t.injector 0).proofTimer = some 1000 ∧
    (t.arm 0).endStage = .tripped := by decide +kernel

/-- The bench with arm 2 in the same lane, waiting behind arm 1 in the header with a stroke of load 6 owed. -/
def laneOfTwo (shut : Bool) : State :=
  let second : ArmDef := { benchDef with baseMeter := 2, ethMeter := some 3, injectors := [1], perms := Vector.replicate 8 none }
  let waiting : Load := { benchLoad .admitting .body with
    number := 6, arm := 1, admitFrom := some .resume, adds := [{ benchEntry with inj := 1 }] }
  let s := { bench [benchLoad .flowing .body, waiting] with
    header := { factoryHeader with parts := [⟨0, 100, 100⟩], queue := [1] } }
  (s.modArm 1 fun _ => { benchArm with defn := some second }).modLane 0 fun x => { x with shut := shut }

/-- R150, R155, R167: the arm that waits is admitted when a hold takes the other out, and fires the stroke it owes. -/
theorem test_admitted_arm_fires :
    let t := (laneOfTwo false).takeCause 0 (.cause .driverStop) .none
    (t.head 1).map (·.state) = some .flowing ∧ (t.injector 1).state = .firing := by decide +kernel

/-- R173: after the trip of the first arm of a SHUT lane, the second, whose own trip is still to come, begins no stroke. -/
theorem test_no_stroke_between_lane_trips :
    let t := (laneOfTwo true).laneTrip .emergencyStop (.lane 0) 0
    (t.head 1).map (fun l => l.adds.map (·.fired)) = some [1] ∧ (t.injector 1).state = .idle ∧
    ((t.laneTrip .emergencyStop (.lane 0) 1).head 1).map (·.state) = some .settling := by decide +kernel

/-! ### What meets the hypotheses of each statement -/

/-- A LOAD field for the bench's load. -/
def load5 : List Chars := ["LOAD=5".toList]

theorem witness_CommandsCanBeLost :
    ({ bench [] with powered := false } : State).powered = false ∧
    (requestTokens (.hold [])).isSome = true ∧
    (after (.hold []) (bench [])).link.sending.isSome = true ∧
    ∀ inp, Instr.hold [] ≠ .powerRestore inp :=
  ⟨rfl, rfl, by decide +kernel, fun _ h => by cases h⟩

/-- The least and the greatest module address, and the longest request. -/
theorem witness_FrameBringsTheRequest :
    (Instr.restart [] { position := 30, speed := .b38400 }).wellFormed = true ∧
    (requestFrame 31 (.restart [] { position := 30, speed := .b38400 })).isSome = true ∧
    (Instr.hold [List.replicate 507 'A']).wellFormed = true ∧
    (requestFrame 1 (.hold [List.replicate 507 'A'])).isSome = true ∧
    (Instr.unknownRequest []).wellFormed = true ∧ (requestFrame 1 (.unknownRequest [])).isSome = true := by
  decide +kernel

theorem witness_TestedFramesAreInvalid :
    (1 ≤ 31 ∧ 31 ≤ 31 ∧ 1 ≠ 31) ∧ "0000".toList.length = 4 ∧
    hexNum? "0000".toList ≠ some (crc16 (twoDigits 1 ++ ['X'])).toNat ∧
    hexNum? "00G0".toList ≠ some (crc16 (twoDigits 1 ++ ['X'])).toNat := by decide +kernel

theorem witness_ValidFrameIsAnsweredOnce :
    (bench []).ready ∧ isRequest (.setLink ["TIMEOUT=600".toList]) ∧ isRequest (.unknownRequest []) ∧
    ∃ t, exec (.setLink ["TIMEOUT=600".toList]) (bench []) = .next t :=
  ⟨⟨rfl, rfl⟩, ⟨rfl, fun _ h => by cases h⟩, ⟨rfl, fun _ h => by cases h; rfl⟩, _, rfl⟩

theorem witness_RefusedRequestChangesNothing :
    (bench []).ready ∧ (requestTokens (.hold [])).isSome = true ∧
    (∃ t, exec (.hold []) (bench []) = .next t ∧
      t.link.sending = some { address := 1, response := .no .format }) ∧
    formError (.hold []) = some .format ∧ formError (.getArm ["ARM=9".toList]) = some .range :=
  ⟨⟨rfl, rfl⟩, rfl, ⟨_, rfl, rfl⟩, rfl, rfl⟩

theorem witness_PortEventsTouchThePortAlone :
    (bench []).powered = true ∧ (bench []).link.sending = none ∧ unknownWord [] = true ∧
    unknownWord ["HOLD=1".toList] = true ∧ frameBody? (bench []).link.address [] = none ∧
    frameBody? (bench []).link.address "01X0000".toList = none := by decide +kernel

theorem witness_NumberFieldsAreRead :
    ((words "LOAD=5 LOAD=6").filter fun t => "LOAD=".toList.isPrefixOf t).length ≠ 1 ∧
    ((words "ARM=1").filter fun t => "LOAD=".toList.isPrefixOf t).length ≠ 1 ∧
    ((words "TAG=A TAG=B").filter fun t => "TAG=".toList.isPrefixOf t).length = 2 ∧
    (∀ key ∈ ["LOAD", "ARM", "RECIPE", "PRESET", "TAG"], (key.toList ++ ['=']).isPrefixOf "POS=1".toList = false) ∧
    (∃ c ∈ ['5', 'x'], c.isDigit = false) ∧ '=' ∈ "A=B".toList ∧ ['!', '~'] ≠ [] ∧ '=' ∉ ['!', '~'] ∧
    (∀ c ∈ ['!', '~'], '!' ≤ c ∧ c ≤ '~') ∧
    ["TAG=".toList ++ ['!', '~'], "ARM=".toList ++ numText 8, "LOAD=".toList ++ numText 1,
      "PRESET=".toList ++ numText 100, "RECIPE=".toList ++ numText 999].Perm
    (["LOAD=".toList ++ numText 1, "ARM=".toList ++ numText 8, "RECIPE=".toList ++ numText 999,
      "PRESET=".toList ++ numText 100] ++ ((some ['!', '~']).map fun v => "TAG=".toList ++ v).toList) :=
  ⟨by decide +kernel, by decide +kernel, by decide +kernel, by decide +kernel, ⟨'x', by simp, rfl⟩, by decide +kernel,
    by decide, by decide, by simp, by decide +kernel⟩

/-- The AUTHORIZE of the bench, at the least preset the recipe's flush, the close-ahead and W allow. -/
def benchAuthorize : AuthorizeArgs := { load := 6, arm := 0, recipe := 7, preset := 1000, tag := none }

theorem witness_AuthorizeCreatesTheRecord :
    let s := bench [benchLoad .flowing .body]
    s.ready ∧ parseAuthorize (words "LOAD=6 ARM=1 RECIPE=7 PRESET=1000") = .ok benchAuthorize ∧
    (s.arm 0).defn = some benchDef ∧ (s.arm 0).locked = false ∧ (s.lane benchDef.lane).shut = false ∧
    s.recipe 7 = some benchRecipe ∧ benchRecipe.retiring = false ∧
    (0 < benchRecipe.r → benchDef.ethMeter.isSome = true) ∧
    (∀ x ∈ benchRecipe.adds, ∃ j ∈ benchDef.injectors, (s.injector j).addId = x.id) ∧
    benchRecipe.flush + benchDef.a + benchDef.w ≤ 1000 ∧
    bodyShare (ethTarget 1000 1000) 0 (bodyEnd 1000 150 12) 0 ≤ benchDef.sMax ∧
    (∀ l ∈ s.loads, l.number ≠ 6) ∧ s.loads.length < 32 ∧ (s.armQueue 0).length < 3 :=
  ⟨⟨rfl, rfl⟩, rfl, by decide +kernel⟩

/-- One state for each refusal of R17, checks 3 to 13, in order. -/
theorem witness_AuthorizeRefusalsInOrder :
    let q := benchAuthorize
    let no (s : State) (q : AuthorizeArgs) (c : Code) : Bool := authorizeRefusal q s == some c
    parseAuthorize (words "LOAD=6 ARM=1 RECIPE=7 PRESET=1000") = .ok q ∧ (bench []).ready ∧
    no (bench []) { q with arm := 1 } .notCommissioned = true ∧
    no (benchWith (fun x => { x with locked := true }) []) q .armLocked = true ∧
    no ((bench []).modLane 0 fun x => { x with shut := true }) q .laneShut = true ∧
    no (bench []) { q with recipe := 9 } .noSuchRecipe = true ∧
    no ((bench []).modRecipe 7 fun r => { r with retiring := true }) q .recipeRetiring = true ∧
    no (benchWith (fun x => { x with defn := some { benchDef with ethMeter := none } }) []) q
      .noEthanolMeter = true ∧
    no (benchWith (fun x => { x with defn := some { benchDef with injectors := [] } }) []) q
      .noInjector = true ∧
    no (bench []) { q with preset := 171 } .range = true ∧
    no (bench []) { q with preset := 172 } .unreachable = true ∧
    no (bench [{ benchLoad .ended .flush with number := 6 }]) q .duplicate = true ∧
    no (bench (List.replicate 32 (benchLoad .ended .flush))) q .tableFull = true ∧
    no (bench (List.replicate 3 (benchLoad .authorized .body))) q .queueFull = true :=
  ⟨rfl, ⟨rfl, rfl⟩, by decide +kernel⟩

theorem witness_AmendRedrawsTheLine :
    let q : AmendArgs := { load := 5, preset := 6000 }
    parseAmend (words "LOAD=5 PRESET=6000") = .ok q ∧
    (∀ l ∈ [benchLoad .authorized .body, { benchLoad .admitting .body with admitFrom := some .start },
        { benchLoad .admitting .body with admitFrom := some .resume }, benchLoad .flowing .body,
        benchLoad .held .body, benchLoad .flowing .flush, benchLoad .ending .body, benchLoad .ended .flush],
      (bench [l]).load 5 = some l) ∧
    150 + 12 + 10 ≤ 6000 ∧ bodyShare (ethTarget 6000 1000) 0 (bodyEnd 6000 150 12) 0 ≤ 2500 ∧
    ((10 * 1000 : Nat) : Int) ≤ (6000 : Int) * 1000 - (max 150 12 : Nat) * 1000 - (5840000 : Nat) :=
  ⟨rfl, by decide +kernel⟩

theorem witness_RecordsLeaveTheTable :
    parseLoad load5 = .ok 5 ∧ (bench [benchLoad .authorized .body]).ready ∧
    (bench [benchLoad .authorized .body]).load 5 = some (benchLoad .authorized .body) ∧
    (bench [benchLoad .ended .flush]).load 5 = some (benchLoad .ended .flush) ∧
    ((bench [benchLoad .authorized .body]).modRecipe 7 fun r => { r with retiring := true }).recipe 7 =
      some { benchRecipe with retiring := true } ∧
    (bench [benchLoad .authorized .body]).recipe 7 = some benchRecipe ∧ benchRecipe.refs = 1 ∧
    benchRecipe.retiring = false :=
  ⟨rfl, ⟨rfl, rfl⟩, by decide +kernel⟩

/-- The bench's load FLOWING, its arm a participant; the resume count is one below the limit of 5. -/
def flowing : State :=
  { bench [{ benchLoad .flowing .body with resumes := 4 }] with
    header := { factoryHeader with parts := [⟨0, 100, 100⟩] } }

/-- The same with a no-flow timer running. -/
def flowingTimed : State := flowing.modFlow 0 fun f => { f with noFlowEth := some 8 }

theorem witness_HoldStopsAFlowingLoad :
    let l := { benchLoad .flowing .body with resumes := 4 }
    flowingTimed.powered = true ∧ flowingTimed.head 0 = some l ∧ l.state = .flowing ∧
    l.resumes < (flowingTimed.defn 0).resLimit ∧ flowingTimed.waits 0 = false ∧
    flowingTimed.causes[Cause.driverStop.index] = .hold ∧ flowingTimed.link.sending = none ∧
    parseLoad load5 = .ok 5 ∧ flowingTimed.load 5 = some l ∧
    flowingTimed.causes[Cause.hostHold.index] = .hold ∧
    ((flowingTimed.arm 0).flow.noFlow .ethanol).isSome = true ∧
    (flowingTimed.defn 0).meterOf .ethanol = some 1 ∧
    flowingTimed.causes[Cause.noFlow.index] = .hold :=
  ⟨rfl, by decide +kernel, rfl, by decide +kernel, by decide +kernel, by decide +kernel, rfl, rfl,
    by decide +kernel⟩

theorem witness_HoldActsByTheLoadState :
    (∀ l ∈ [{ benchLoad .admitting .body with admitFrom := some .start },
        { benchLoad .admitting .body with admitFrom := some .resume }, benchLoad .ending .body,
        benchLoad .held .body],
      (bench [l]).powered = true ∧ (bench [l]).head 0 = some l ∧ (bench [l]).participates 0 = false ∧
      l.stop1 = none ∧ (bench [l]).waits 0 = false ∧ (bench [l]).load 5 = some l ∧
      (bench [l]).causes[Cause.driverStop.index] = .hold ∧
      (bench [l]).causes[Cause.hostHold.index] = .hold) ∧ parseLoad load5 = .ok 5 :=
  ⟨by decide +kernel, rfl⟩

theorem witness_PressesCanBeIgnored :
    (∀ l, (bench []).head 0 = some l → l.state = .authorized ∨ l.state = .held ∨ l.state = .settling) ∧
    (∀ l, (bench []).head 0 = some l → l.state ≠ .held ∧ (l.state = .authorized →
      ((bench []).arm 0).permissive ≠ some true ∨ ((bench []).arm 0).locked = true ∨
        ∃ n, (bench []).laneOf 0 = some n ∧ ((bench []).lane n).shut = true)) ∧
    (bench [benchLoad .held .body]).head 0 = some (benchLoad .held .body) ∧
    (benchWith (fun x => { x with locked := true }) [benchLoad .authorized .body]).head 0 =
      some (benchLoad .authorized .body) ∧
    ((benchWith (fun x => { x with locked := true }) [benchLoad .authorized .body]).arm 0).locked = true :=
  have h0 : (bench []).head 0 = none := by decide +kernel
  ⟨fun l h => by simp [h0] at h, fun l h => by simp [h0] at h, by decide +kernel⟩

theorem witness_EndBringsTheFlush :
    let l := { benchLoad .flowing .body with resumes := 5, v := 5987999 }
    (bench [l]).powered = true ∧ (bench [l]).head 0 = some l ∧ l.state = .flowing ∧
    (bench [l]).waits 0 = false ∧
    0 < min ((((bench [l]).recipeOf l).flush : Int) * 1000)
      (((l.preset : Int) - ((bench [l]).defn 0).a) * 1000 - l.v) ∧
    (bench [l]).link.sending = none ∧ (bench [l]).load 5 = some l ∧
    (bench [l]).causes[Cause.driverStop.index] = .hold ∧ 0 < ((bench [l]).defn 0).resLimit ∧
    ((bench [l]).defn 0).resLimit ≤ l.resumes ∧ parseLoad load5 = .ok 5 :=
  ⟨rfl, by decide +kernel, rfl, by decide +kernel, by decide +kernel, rfl, by decide +kernel⟩

theorem witness_ResumeMovesTheLoadOn :
    let l := { benchLoad .held .body with
      holds := [.supplyLow], holdDetails := [(.supplyLow, .injector 0)], resumes := 15 }
    let s := { bench [l] with header := { factoryHeader with queue := [3] } }
    s.powered = true ∧ s.head 0 = some l ∧ l.state = .held ∧ (s.arm 0).locked = false ∧
    (∀ n, s.laneOf 0 = some n → (s.lane n).shut = false) ∧ (s.arm 0).permissive = some true ∧
    (∀ x ∈ l.holdDetails, x.1 ∈ l.holds → s.conditionStands 0 x = false) ∧ s.participates 0 = false ∧
    s.waits 0 = false ∧ l.phase = .body ∧ 0 < (s.recipeOf l).r ∧ s.header.queue ≠ [] ∧
    s.load 5 = some l ∧ parseLoad load5 = .ok 5 ∧
    (s.modInjector 0 fun j => { j with supplyUsed := true, supplyLow := true }).conditionStands 0
      (.supplyLow, .injector 0) = true := by decide +kernel

theorem witness_StartPressStartsTheLoad :
    let l := benchLoad .authorized .body
    let s := { bench [l] with header := { factoryHeader with queue := [3] } }
    s.powered = true ∧ s.head 0 = some l ∧ l.state = .authorized ∧ (s.arm 0).permissive = some true ∧
    (s.arm 0).locked = false ∧ (∀ n, s.laneOf 0 = some n → (s.lane n).shut = false) ∧
    (∀ m, (s.meter m).probe ≠ .fault) ∧ (∀ j, (s.injector j).supplyLow = false) ∧
    s.participates 0 = false ∧ s.waits 0 = false ∧ 0 < (s.recipeOf l).r ∧
    (s.recipeOf { l with recipe := 8 }).r = 0 := by decide +kernel

/-- The bench's load SETTLING, both settle timers running, one pulse seen. -/
def settling (adds : List AddEntry) : State :=
  (bench [{ benchLoad .settling .flush with adds := adds, v := 6000001 }]).modArm 0 fun x =>
    { x with
      endStage := .awaitingFinal
      flow := { x.flow with settleTimer := some 3, maxTimer := some 30, lastSettle := some 0 } }

theorem witness_SettledLoadEnters :
    let s := (settling []).modArm 0 fun x =>
      { x with flow := { x.flow with settleComplete := true }, endReported := true }
    s.powered = true ∧ (s.head 0).map (·.state) = some .settling ∧
    (s.arm 0).flow.settleComplete = true ∧ (s.arm 0).endReported = true := by decide +kernel

theorem witness_StoreRecipeWritesTheTable :
    (bench []).ready ∧ (parseStore (words "CODE=999 R=0 FLUSH=0 STEP1=DEL,0,1,0")).toOption.isSome = true ∧
    (bench []).recipe 999 = none ∧ (bench []).recipes.length < 32 ∧
    (parseStore (words "CODE=8 R=3000 FLUSH=500 STEP1=DEL,0,4000,2000")).toOption.isSome = true ∧
    (bench []).recipe 8 = some plainRecipe ∧ plainRecipe.retiring = false ∧ plainRecipe.refs = 0 :=
  ⟨⟨rfl, rfl⟩, by decide +kernel⟩

theorem witness_RetireRecipeWithdraws :
    (bench []).ready ∧ parseCode ["CODE=7".toList] = .ok 7 ∧ parseCode ["CODE=8".toList] = .ok 8 ∧
    (bench []).recipe 7 = some benchRecipe ∧ 0 < benchRecipe.refs ∧
    (bench []).recipe 8 = some plainRecipe ∧ plainRecipe.refs = 0 ∧
    ((bench []).recipes.map (·.code)).Nodup ∧
    ((bench []).modRecipe 7 fun r => { r with retiring := true }).recipe 7 =
      some { benchRecipe with retiring := true } :=
  ⟨⟨rfl, rfl⟩, rfl, rfl, by decide +kernel⟩

theorem witness_SetArmCommissions :
    (bench []).ready ∧
    (parseSetArm (words "ARM=2 LANE=4 BMETER=M16 EMETER=M15 INJ=J12")).toOption.map
      (fun q => (q.arm, q.defn.lane, q.defn.baseMeter, q.defn.ethMeter, q.defn.injectors)) =
      some (1, 3, 15, some 14, [11]) ∧
    ((bench []).lane 3).shut = false ∧ (bench []).laneOf 1 = none ∧ (bench []).armQueue 1 = [] ∧
    (∀ b, b ≠ 1 → (((bench []).arm b).defn.all fun e =>
      e.baseMeter != 15 && e.ethMeter != some 15 && e.baseMeter != 14 && e.ethMeter != some 14 &&
      !e.injectors.contains 11) = true) :=
  ⟨⟨rfl, rfl⟩, by decide +kernel⟩

theorem witness_DecommissionWithdraws :
    (bench []).ready ∧ parseArm ["ARM=1".toList] = .ok 0 ∧ parseArm ["ARM=8".toList] = .ok 7 ∧
    ((bench []).arm 7).defn = none ∧ ((bench []).arm 0).defn.isSome = true ∧ (bench []).armQueue 0 = [] ∧
    (bench [benchLoad .authorized .body]).armQueue 0 ≠ [] :=
  ⟨⟨rfl, rfl⟩, rfl, rfl, by decide +kernel⟩

theorem witness_ResetArmClearsTheLock :
    (bench []).ready ∧ parseArm ["ARM=1".toList] = .ok 0 ∧
    (∀ n, (bench []).laneOf 0 = some n → ((bench []).lane n).shut = false) ∧
    (bench []).headIs 0 (· == .settling) = false ∧ (settling []).headIs 0 (· == .settling) = true ∧
    ((bench []).modLane 0 fun x => { x with shut := true }).laneOf 0 = some 0 ∧
    (((bench []).modLane 0 fun x => { x with shut := true }).lane 0).shut = true :=
  ⟨⟨rfl, rfl⟩, rfl, by decide +kernel⟩

/-- The stray volume stands at the leak allowance. -/
theorem witness_ResetLaneReturnsToService :
    let s := benchWith (fun x => { x with strayVol := 20000 }) []
    s.ready ∧ parseLane ["LANE=1".toList] = .ok 0 ∧ (s.lane 0).emergency = false ∧
    (∀ a, s.laneOf a = some 0 → (s.arm a).strayVol ≤ (s.defn a).leak * 1000 ∧
      s.headIs a (· == .settling) = false) ∧ s.laneOf 0 = some 0 ∧
    ((s.modLane 0 fun x => { x with emergency := true }).lane 0).emergency = true :=
  ⟨⟨rfl, rfl⟩, rfl, by decide +kernel⟩

theorem witness_MetrologyNeedsTheKey :
    parseSetMeter (words "CHANNEL=M1 K=50000") =
      .ok { meter := 0, k := some 50000, mf := none, beta := none, tDepth := none, qDepth := none } ∧
    (bench [benchLoad .flowing .body]).ready ∧ ((bench []).meter 0).k ≠ 50000 ∧
    ({ bench [] with calibration := .opened } : State).calibration = .opened ∧
    (bench [benchLoad .flowing .body]).calibration = .closed ∧
    (bench [benchLoad .flowing .body]).meterBinding 0 = some (0, .base) ∧
    (bench [benchLoad .flowing .body]).headIs 0 LoadState.inProgress = true :=
  ⟨rfl, ⟨rfl, rfl⟩, by decide +kernel⟩

theorem witness_SetMeterWritesTheChannel :
    let unkeyed := { bench [benchLoad .flowing .body] with calibration := .opened }
    let locked (pulses : Nat) := benchWith (fun x => { x with strayBase := pulses, locked := true }) []
    parseSetMeter (words "CHANNEL=M16 K=2000000 TDEPTH=5") =
      .ok { meter := 15, k := some 2000000, mf := none, beta := none, tDepth := some 5, qDepth := none } ∧
    (bench []).ready ∧ (bench []).meterBinding 15 = none ∧ (bench []).calibration = .closed ∧
    parseSetMeter (words "CHANNEL=M1 TDEPTH=5") =
      .ok { meter := 0, k := none, mf := none, beta := none, tDepth := some 5, qDepth := none } ∧
    unkeyed.ready ∧ unkeyed.headIs 0 LoadState.inProgress = true ∧
    parseSetMeter (words "CHANNEL=M1 K=50000") =
      .ok { meter := 0, k := some 50000, mf := none, beta := none, tDepth := none, qDepth := none } ∧
    (bench []).meterBinding 0 = some (0, .base) ∧ ((bench []).meter 0).k ≠ 50000 ∧
    (bench [benchLoad .authorized .body]).headIs 0 LoadState.inProgress = false ∧
    1000 * 100 * ((bench []).meter 0).mf / 50000 = (benchDef.leak * 1000 : Nat) ∧
    benchDef.leak * 1000 < (1001 * 100 * ((bench []).meter 0).mf / 50000 : Nat) ∧
    ((locked 1001).arm 0).leakWatch = .armed ∧ (locked 1001).causes[Cause.leakBy.index] = .trip ∧
    ((locked 1001).lane benchDef.lane).shut = false ∧ (locked 1001).headerOk ∧
    (((locked 1001).modLane 0 fun x => { x with shut := true }).lane benchDef.lane).shut = true :=
  ⟨rfl, ⟨rfl, rfl⟩, by decide +kernel, rfl, rfl, ⟨rfl, rfl⟩, by decide +kernel, rfl, by decide +kernel,
    by decide +kernel, by decide +kernel, by decide +kernel, by decide +kernel, rfl, rfl, rfl,
    by unfold State.headerOk; decide +kernel, rfl⟩

/-- The 2000th stray pulse of 10 mL brings the stray volume to the leak allowance of 20 L. -/
theorem witness_PulseWithoutALoadIsStray :
    let s := benchWith (fun x => { x with strayBase := 1999 }) []
    s.powered = true ∧ s.meterBinding 15 = none ∧ s.meterBinding 0 = some (0, .base) ∧
    s.headIs 0 LoadState.inProgress = false ∧
    min 4294967295 ((1999 + 1) * 100 * (s.meter 0).mf / (s.meter 0).k +
      (s.arm 0).strayEth * 100 * (s.meter 1).mf / (s.meter 1).k) ≤ (s.defn 0).leak * 1000 := by
  decide +kernel

theorem witness_LeakLocksTheArm :
    let s := benchWith (fun x => { x with strayBase := 2000 }) []
    let l := benchWith (fun x => { x with strayBase := 2000, locked := true }) []
    let volume (pulses : Nat) : Nat := pulses * 100 * (s.meter 0).mf / (s.meter 0).k
    s.powered = true ∧ s.meterBinding 0 = some (0, .base) ∧ s.headIs 0 LoadState.inProgress = false ∧
    s.causes[Cause.leakBy.index] = .trip ∧ volume 2000 ≤ (s.defn 0).leak * 1000 ∧
    (s.defn 0).leak * 1000 < volume 2001 ∧ (s.arm 0).leakWatch = .armed ∧ (s.arm 0).locked = false ∧
    (l.arm 0).locked = true ∧ (l.arm 0).leakWatch = .armed ∧ (l.lane (l.defn 0).lane).shut = false ∧ l.headerOk ∧
    ((l.modLane 0 fun x => { x with shut := true }).lane (l.defn 0).lane).shut = true :=
  ⟨rfl, by decide +kernel, by decide +kernel, rfl, by decide +kernel, by decide +kernel, rfl, rfl, rfl, rfl, rfl,
    by unfold State.headerOk; decide +kernel, rfl⟩

theorem witness_PulseIsCreditedToTheLoad :
    let boundary (vc : Nat) := nextBoundary benchDef.w 5850000 (closeAhead 6000 benchDef.a) vc
    let pulsed (n vc : Nat) : State := (bench [{ benchLoad .flowing .body with
      base := { Account.zero with pulses := n, gross := n * 10 }, v := n * 10, vc := vc, alarms := 4 }]).modFlow 0
        fun f => { f with started := true }
    let volume (n : Nat) : Nat := n * 100 * ((bench []).meter 0).mf / ((bench []).meter 0).k
    (∀ x ∈ [(998, 0), (999, 0), (99999, 990000), (584999, 5849000)],
      let s := pulsed x.1 x.2
      s.powered = true ∧ s.meterBinding 0 = some (0, .base) ∧ s.meterBinding 1 = some (0, .ethanol) ∧
      (s.head 0).map (fun l => (l.state, l.phase, l.rstLeft)) = some (.flowing, .body, 0) ∧
      (s.head 0).map (fun l => (l.step, l.alarms, l.resumes)) = some (1, 4, 0) ∧
      (s.arm 0).flow.started = true ∧ noStroke s 0 = false ∧ s.causes[Cause.additiveLag.index] = .note ∧
      s.causes[Cause.ratioDeviation.index] = .hold ∧ s.waits 0 = false) ∧
    volume 999 < boundary 0 ∧ boundary 0 = volume 1000 ∧ (volume 1000 : Int) * 600000 / 5850000 ≤ 5000 ∧
    boundary 990000 = volume 100000 ∧ (5000 : Int) < (volume 100000 : Int) * 600000 / 5850000 ∧
    benchDef.devCount = 4 + 1 ∧ boundary 5849000 = volume 585000 ∧ volume 585000 = 5850000 ∧
    volume 585000 < closeAhead 6000 benchDef.a ∧ [benchEntry.inj].Nodup := by decide +kernel

/-- The pulse that takes V from 5,987,990 mL to the close-ahead point of 5,988,000 mL. -/
theorem witness_CloseAheadBeginsTheSettle :
    let l := { benchLoad .flowing .flush with
      base := { Account.zero with pulses := 598799, gross := 5987990 }, v := 5987990, vc := 5980000 }
    let s := bench [l]
    s.powered = true ∧ s.meterBinding 0 = some (0, .base) ∧ (s.defn 0).baseMeter = 0 ∧ s.head 0 = some l ∧
    l.state = .flowing ∧ l.rstLeft = 0 ∧ l.pendingOut = none ∧ s.waits 0 = false ∧
    closeAhead l.preset (s.defn 0).a =
      min 4294967295 (min 4294967295 (598800 * 100 * (s.meter 0).mf / (s.meter 0).k) + l.eth.gross) ∧
    l.vc < closeAhead l.preset (s.defn 0).a := by decide +kernel

theorem witness_TablesAreReported : (bench [benchLoad .flowing .body]).ready ∧ [[]] ≠ ([] : List Chars) :=
  ⟨⟨rfl, rfl⟩, by decide⟩

theorem witness_RecordsAreReported :
    (bench []).ready ∧ parseLoad load5 = .ok 5 ∧ parseCode ["CODE=7".toList] = .ok 7 ∧
    parseArm ["ARM=8".toList] = .ok 7 ∧ parseMeter ["CHANNEL=M16".toList] = .ok 15 ∧
    parseInjector ["CHANNEL=J12".toList] = .ok 11 ∧ (bench []).load 5 = none ∧
    ((bench [benchLoad .held .body]).load 5).isSome = true ∧ ((bench []).recipe 7).isSome = true ∧
    (bench []).recipe 9 = none ∧ ((bench []).arm 7).defn = none ∧ ((bench []).arm 0).defn.isSome = true :=
  ⟨⟨rfl, rfl⟩, rfl, rfl, rfl, rfl, rfl, by decide +kernel⟩

theorem witness_SamplesAndReadingsAreTaken :
    let s := bench [benchLoad .flowing .body]
    s.powered = true ∧ (-400 : Int) ≤ 600 ∧ (600 : Int) < 601 ∧ (-401 : Int) < -400 ∧
    ((s.modMeter 0 fun m => { m with probe := .fault }).meter 0).probe = .fault ∧
    (s.meter 0).probe ≠ .fault ∧ s.meterBinding 0 = some (0, .base) ∧ s.meterBinding 15 = none ∧
    s.headIs 0 LoadState.inProgress = true ∧ s.causes[Cause.probeFault.index] = .note ∧
    (bench []).headIs 0 LoadState.inProgress = false := by decide +kernel

/-- The proof timeout equals the pulse width, then stands 1 ms below it. -/
theorem witness_SetInjectorWritesTheChannel :
    parseSetInjector (words "CHANNEL=J12 STROKE=10000 PROOFTO=200") =
      .ok { injector := 11, addId := none, stroke := some 10000, width := none, proofTo := some 200,
            supply := none } ∧
    parseSetInjector (words "CHANNEL=J12 PROOFTO=199") =
      .ok { injector := 11, addId := none, stroke := none, width := none, proofTo := some 199,
            supply := none } ∧
    (bench []).ready ∧ ((bench []).injector 11).width = 200 ∧ (bench []).calibration = .closed ∧
    ({ bench [] with calibration := .opened } : State).calibration = .opened ∧
    (bench []).injectorArm 11 = none :=
  ⟨rfl, rfl, ⟨rfl, rfl⟩, by decide +kernel⟩

/-- The bench's load FLOWING with a stroke of it in flight. -/
def stroking (e : AddEntry) : State :=
  (bench [{ benchLoad .flowing .body with adds := [e] }]).modInjector 0 (Injector.fire (benchLoad .flowing .body))

theorem witness_ChannelInputsAreRecorded :
    (stroking benchEntry).powered = true ∧ ((stroking benchEntry).injector 0).state = .firing ∧
    ((stroking benchEntry).injector 0).pulseTimer.isSome = true ∧ ((bench []).injector 0).state = .idle ∧
    ((bench []).injector 0).supplyUsed = false ∧ (bench []).injectorArm 1 = none ∧
    (bench []).injectorArm 0 = some 0 ∧ (bench []).headIs 0 LoadState.preSettling = false := by
  decide +kernel

theorem witness_StrokesAreProvenOrMissed :
    (∀ e ∈ [benchEntry, { benchEntry with consec := 1 }, { benchEntry with consec := 2 }],
      let l := { benchLoad .flowing .body with adds := [e] }
      let s := stroking e
      s.powered = true ∧ s.injectorArm 0 = some 0 ∧ s.head 0 = some l ∧ s.load 5 = some l ∧
      l.state = .flowing ∧ (l.adds.find? fun x => x.inj == 0) = some e ∧
      (s.injector 0).strokeLoad = some 5 ∧ (s.injector 0).state ≠ .idle ∧ noStroke s 0 = false ∧
      (s.injector 0).proofIn = .opened ∧ (s.injector 0).proofTimer.isSome = true ∧
      s.causes[Cause.additiveFail.index] = .hold ∧ l.resumes < (s.defn 0).resLimit ∧
      s.waits 0 = false) ∧ 1 + 1 < 3 ∧ 3 ≤ 2 + 1 ∧
    (∀ n ∈ [1, 2],
      let l := (settling [benchEntry]).head 0
      let s := ((settling [benchEntry]).modInjector 0 fun j =>
        { Injector.fire (benchLoad .settling .flush) j with catchUp := n }).modArm 0 fun x =>
          { x with endStage := .catchingUp, flow := { x.flow with settleComplete := true } }
      s.powered = true ∧ s.injectorArm 0 = some 0 ∧ s.head 0 = l ∧ s.load 5 = l ∧
      l.map (fun k => (k.state, k.adds)) = some (.settling, [benchEntry]) ∧
      (s.injector 0).strokeLoad = some 5 ∧ (s.injector 0).state ≠ .idle ∧ (s.injector 0).proofIn = .opened ∧
      (s.arm 0).endReported = false ∧ noStroke s 0 = false ∧ (s.injector 0).catchUp = n ∧ (s.defn 0).catchUp = 2) ∧
    benchEntry.proven + 1 < benchEntry.due := by decide +kernel

theorem witness_SetHeaderWritesTheSettings :
    parseSetHeader (words "CAP=6000 PRESSURE=USED") = .ok { cap := some 6000, pressure := some true } ∧
    (bench []).ready ∧ (bench []).header.parts = [] ∧ (bench []).header.queue = [] ∧
    flowing.header.parts ≠ [] :=
  ⟨rfl, ⟨rfl, rfl⟩, by decide +kernel⟩

theorem witness_PressureGovernsTheHeader :
    let s := flowing.modHeader fun h => { h with pressureUsed := true, input := .closed }
    let r := (bench []).modHeader fun h => { h with pressureUsed := true, lost := true }
    (bench []).header.lost = ((bench []).header.pressureUsed && Contact.closed == .opened) ∧
    s.powered = true ∧ s.header.pressureUsed = true ∧ s.header.input = .closed ∧ s.header.lost = false ∧
    s.causes[Cause.headerPressure.index] = .hold ∧ s.participates 0 = true ∧
    (s.head 0).map (fun l => (l.state, l.resumes)) = some (.flowing, 4) ∧ (s.defn 0).resLimit = 5 ∧
    s.waits 0 = false ∧ r.header.pressureUsed = true ∧ r.header.input = .opened ∧ r.header.lost = true ∧
    r.header.parts = [] ∧ r.header.queue = [] := by decide +kernel

/-- The fair share equals the arm's least flow, then stands 1 L/min below it. -/
theorem witness_AdmissionFollowsTheCriterion :
    let l := { benchLoad .admitting .body with admitFrom := some .start }
    let s := { bench [l] with header := { factoryHeader with cap := 30, queue := [0] } }
    s.powered = true ∧ s.header.queue = [0] ∧ s.header.lost = false ∧
    (s.defn 0).eMin ≤ s.header.cap / (s.header.parts.length + 1) ∧ (∀ p ∈ s.header.parts, False) ∧
    s.participates 0 = false ∧ s.head 0 = some l ∧ l.state = .admitting ∧ ¬ (s.defn 0).eMin ≤ 29 / (0 + 1) ∧
    (bench []).header.queue = [] := by decide +kernel

theorem witness_SettingsAreWritten :
    (bench []).powered = true ∧ (bench []).link.sending = none ∧
    parseSetCause (words "CODE=16 CLASS=NOTE") = .ok { cause := .overrun, cls := .note } ∧
    parseTimeout ["TIMEOUT=5".toList] = .ok 5 ∧ parseTimeout ["TIMEOUT=0".toList] = .ok 0 ∧
    parseClearAttention ["SOURCES=NOTICE,LOAD_ENDED".toList] = .ok [.notice, .loadEnded] ∧
    parseEnable (words "SOURCES=NOTICE ACTION=CLEAR MASTER=OFF") =
      .ok { sources := [.notice], action := false, master := some false } :=
  ⟨rfl, rfl, rfl, rfl, rfl, rfl, rfl⟩

theorem witness_PermissiveInputsAct :
    let l := benchLoad .flowing .body
    let plain := { benchDef with
      perms := (Vector.replicate 8 none).set 7 (some { level := .opened, safety := false }) }
    let s := bench [l]
    let p := benchWith (fun x => { x with defn := some plain }) [l]
    let c := benchWith (fun x => { x with levels := x.levels.set 0 .closed }) [l]
    s.powered = true ∧ (s.arm 0).levels[(0 : PermId)] ≠ .closed ∧
    ((s.arm 0).defn.bind fun d => d.perms[(1 : PermId)]) = none ∧
    ((s.arm 0).defn.bind fun d => d.perms[(0 : PermId)]) = some { level := .opened, safety := true } ∧
    ((p.arm 0).defn.bind fun d => d.perms[(7 : PermId)]) = some { level := .opened, safety := false } ∧
    (p.arm 0).levels[(7 : PermId)] ≠ .closed ∧ (c.arm 0).levels[(0 : PermId)] ≠ .opened ∧
    s.head 0 = some l ∧ p.head 0 = some l ∧ s.waits 0 = false ∧ (s.arm 0).locked = false ∧
    s.causes[Cause.safetyPermissive.index] = .trip ∧ p.causes[Cause.permissive.index] = .hold ∧
    l.resumes < (p.defn 0).resLimit ∧ (bench [benchLoad .held .body]).head 0 = some (benchLoad .held .body) := by
  decide +kernel

theorem witness_EmergencyStopShutsTheLane :
    flowing.powered = true ∧ flowing.headerOk ∧ (flowing.lane 0).emergency = false ∧
    (flowing.lane 0).shut = false ∧ flowing.laneOf 0 = some 0 ∧ flowing.laneOf 1 ≠ some 0 :=
  ⟨rfl, by unfold State.headerOk; decide +kernel, by decide +kernel⟩

theorem witness_RampTickMovesTheDemand :
    let s := flowing.modFlow 0 fun f => { f with limit := 600, rate := 300, qDem := 580 }
    s.powered = true ∧ (s.head 0).map (·.state) = some .flowing ∧
    min 600 (580 + max 1 (300 / 10)) ≠ (s.arm 0).flow.qDem ∧ s.participates 0 = true ∧
    ((flowing.arm 0).flow.rate = 0 ∧ (flowing.arm 0).flow.limit = (flowing.arm 0).flow.qDem) := by
  decide +kernel

theorem witness_SettleTimersExpire :
    (∀ adds ∈ [[], [benchEntry], [{ benchEntry with proven := 2000 }]],
      (settling adds).powered = true ∧
      ((settling adds).head 0).map (fun l => (l.state, l.adds)) = some (.settling, adds) ∧
      ((settling adds).arm 0).flow.settleTimer.isSome = true ∧ (adds.map (·.inj)).Nodup ∧
      (settling adds).causes[Cause.overrun.index] = .note ∧ ((settling adds).arm 0).endReported = false ∧
      noStroke (settling adds) 0 = false ∧
      ((settling adds).arm 0).endStage = .awaitingFinal ∧ ((settling adds).injector 0).state = .idle) ∧
    ((settling []).injector 0).catchUp < ((settling []).defn 0).catchUp ∧ benchEntry.consec < 3 ∧
    benchEntry.proven < 6000001 * benchEntry.dose / (((settling []).injector 0).stroke * 10000) ∧
    ¬ 2000 < 6000001 * benchEntry.dose / (((settling []).injector 0).stroke * 10000) ∧
    ((settling []).arm 0).flow.maxTimer.isSome = true ∧ ((settling []).arm 0).flow.lastSettle = some 0 ∧
    ((settling []).arm 0).flow.settleComplete = false ∧ ((settling []).arm 0).locked = false ∧
    (settling []).causes[Cause.leakBy.index] = .trip ∧
    (((settling []).modFlow 0 fun f => { f with lastSettle := none }).arm 0).flow.lastSettle = none := by
  decide +kernel

theorem witness_LinkTimeoutRaisesLinkLost :
    let s := flowing.modLink fun k => { k with timer := some 5 }
    s.powered = true ∧ s.link.timer.isSome = true ∧ s.causes[Cause.linkLost.index] = .note ∧
    (s.arm 0).defn.isSome = true ∧ (s.head 0).map (·.state.preSettling) = some true ∧
    (s.arm 1).defn = none := by decide +kernel

theorem witness_SupplyIsLostAndRestored :
    flowing.loadTableOk ∧ flowing.powered = true ∧
    (∃ l ∈ flowing.loads, l.state.inProgress = true) ∧ (State.inputs flowing).emergency[0] = false :=
  ⟨by unfold State.loadTableOk; decide +kernel, rfl, by decide +kernel⟩

theorem witness_RestartAndFactoryClear :
    flowing.ready ∧ (bench []).ready ∧ (∃ l ∈ flowing.loads, l.state.inProgress = true) ∧
    (∀ l ∈ (bench []).loads, l.state.inProgress = false) ∧ (bench []).calibration = .closed ∧
    flowing.loads ≠ [] ∧ ({ bench [] with calibration := .opened } : State).calibration = .opened :=
  ⟨⟨rfl, rfl⟩, ⟨rfl, rfl⟩, by decide +kernel⟩

theorem witness_StepKeepsTheInvariants :
    (∃ t, step { State.reset with pending := [.meterPulse 0] } = .next t) ∧
    flowing.loadTableOk ∧ flowing.recipeTableOk ∧ flowing.recordsOk ∧ flowing.carriesOk ∧ flowing.queuesOk ∧
    flowing.headerOk ∧ flowing.valvesFollowLoad ∧ flowing.valvesInRange ∧ flowing.strokesOk ∧
    flowing.permissivesOk ∧ flowing.locksOk := by
  refine ⟨⟨_, rfl⟩, ?_, ?_, ?_, ?_, ?_, ?_, ?_, ?_, ?_, ?_, ?_⟩
  · unfold State.loadTableOk; decide +kernel
  · unfold State.recipeTableOk; decide +kernel
  · unfold State.recordsOk Load.recordOk; decide +kernel
  · unfold State.carriesOk; decide +kernel
  · unfold State.queuesOk; decide +kernel
  · unfold State.headerOk; decide +kernel
  · unfold State.valvesFollowLoad; decide +kernel
  · unfold State.valvesInRange; decide +kernel
  · unfold State.strokesOk Injector.strokeOk; decide +kernel
  · unfold State.permissivesOk; decide +kernel
  · unfold State.locksOk; decide +kernel

/-- The grants of the bench meet the invariant, and the causes of the factory table are allowed ones. -/
theorem witness_StepKeepsTheGrants : flowing.grantsOk ∧ flowing.causesOk :=
  ⟨by unfold State.grantsOk; decide +kernel, fun c => by cases c <;> decide +kernel⟩

theorem witness_EndedRecordsStand :
    let l := benchLoad .ended .flush
    (∃ t, exec .admission (bench [l]) = .next t) ∧ l ∈ (bench [l]).loads ∧ l.state = .ended ∧
    (∀ j, ((bench [l]).injector j).strokeLoad ≠ some l.number) ∧ ∀ f, Instr.admission ≠ .retireLoad f :=
  ⟨⟨_, rfl⟩, by decide +kernel, rfl, by decide +kernel, fun _ h => by cases h⟩

theorem witness_OnlyTheirRequestsChangeSettings :
    (∃ t, exec .admission (bench []) = .next t) ∧ ∀ f, Instr.admission ≠ .factoryClear f :=
  ⟨⟨_, rfl⟩, fun _ h => by cases h⟩

theorem witness_QuantitiesStayInTheirRanges :
    (0 : Int) < 1 ∧ 2000 ≤ 2000 ∧ (-400 : Int) ≤ 600 ∧ 0 < 100 ∧ 100 ≤ 100 ∧ 3000 ≤ 10000 := by decide

end Sys2Proof.Tests
end

section
/-! PROOFS. The records of an accepted AUTHORIZE (R17, R18) and the reports of the requests without fields. -/

namespace Sys2Proof.Machine

/-! ### AUTHORIZE (R17, R18) -/

theorem exec_authorize (f : List Chars) (s : State) : exec (.authorize f) s = execAuthorize f s := rfl

theorem State.defn_of_some {s : State} {a : ArmId} {d : ArmDef} (h : (s.arm a).defn = some d) :
    s.defn a = d := by
  simp [State.defn, h]

theorem State.armLaneShut_of_some {s : State} {a : ArmId} {d : ArmDef} (h : (s.arm a).defn = some d) :
    s.armLaneShut a = (s.lane d.lane).shut := by
  simp [State.armLaneShut, State.laneOf, h]

theorem State.load_isSome {s : State} {n : Nat} : (s.load n).isSome = true ↔ ∃ l ∈ s.loads, l.number = n := by
  simp [State.load]

/-- The checks 3 to 13 of R17 on an AUTHORIZE for an arm with definition `d` and a recipe `r`, all passed. -/
structure AuthorizePasses (q : AuthorizeArgs) (d : ArmDef) (r : Recipe) (s : State) : Prop where
  commissioned : (s.arm q.arm).defn = some d
  unlocked     : (s.arm q.arm).locked = false
  laneNormal   : (s.lane d.lane).shut = false
  stored       : s.recipe q.recipe = some r
  active       : r.retiring = false
  metered      : 0 < r.r → d.ethMeter.isSome = true
  injected     : ∀ x ∈ r.adds, ∃ j ∈ d.injectors, (s.injector j).addId = x.id
  enough       : r.flush + d.a + d.w ≤ q.preset
  reachable    : bodyShare (ethTarget q.preset r.r) 0 (bodyEnd q.preset r.flush d.a) 0 ≤ d.sMax
  newNumber    : ∀ l ∈ s.loads, l.number ≠ q.load
  tableRoom    : s.loads.length < 32
  queueRoom    : (s.armQueue q.arm).length < 3

theorem AuthorizePasses.not_refused {q : AuthorizeArgs} {d : ArmDef} {r : Recipe} {s : State}
    (h : AuthorizePasses q d r s) : authorizeRefusal q s = none := by
  have hload : (s.load q.load).isSome = false := by
    rw [Bool.eq_false_iff, ne_eq, State.load_isSome]
    rintro ⟨l, hl, hn⟩
    exact h.newNumber l hl hn
  have hinj : (r.adds.all fun x => d.injectors.any fun j => (s.injector j).addId == x.id) = true := by
    simpa using h.injected
  have heth : (decide (0 < r.r) && d.ethMeter.isNone) = false := by
    cases hm : d.ethMeter with
    | none => simpa [hm] using h.metered
    | some m => simp
  rw [authorizeRefusal, firstFailure_eq_none]
  simp [State.commissioned, State.defn_of_some h.commissioned,
    State.armLaneShut_of_some h.commissioned, h.commissioned, h.unlocked, h.laneNormal, h.stored, h.active,
    heth, hinj, h.enough, h.reachable, hload, h.tableRoom, h.queueRoom]

theorem authorizeAccept_eq (q : AuthorizeArgs) (s : State) :
    authorizeAccept q s =
      { s with
        loads := s.loads ++ [newLoad q s]
        recipes := updFirst (fun x => x.code == q.recipe) (fun x => { x with refs := x.refs + 1 }) s.recipes } :=
  rfl

/-- The new record stands last in its arm's queue (R3). -/
theorem armQueue_authorizeAccept (q : AuthorizeArgs) (s : State) :
    (authorizeAccept q s).armQueue q.arm = s.armQueue q.arm ++ [newLoad q s] := by
  simp [authorizeAccept, State.armQueue, newLoad]

theorem authorizeAnswer_eq (q : AuthorizeArgs) (before after : State) :
    authorizeAnswer q before after =
      .ok [field "LOAD" (numText q.load), field "STATE" "AUTHORIZED".toList,
        field "POS" (numText (after.armQueue q.arm).length)] :=
  rfl

/-- POS is one more than the length of the arm's queue before (R18). -/
theorem authorizeAnswer_accept (q : AuthorizeArgs) (s : State) :
    authorizeAnswer q s (authorizeAccept q s) =
      .ok [field "LOAD" (numText q.load), field "STATE" "AUTHORIZED".toList,
        field "POS" (numText ((s.armQueue q.arm).length + 1))] := by
  rw [authorizeAnswer_eq, armQueue_authorizeAccept, List.length_append, List.length_singleton]

theorem execAuthorize_accepted {f : List Chars} {q : AuthorizeArgs} {d : ArmDef} {r : Recipe} {s : State}
    (hs : s.ready) (hq : parseAuthorize f = .ok q) (h : AuthorizePasses q d r s) :
    execAuthorize f s = .next (s.answered
      { s with
        loads := s.loads ++ [newLoad q s]
        recipes := updFirst (fun x => x.code == q.recipe) (fun x => { x with refs := x.refs + 1 }) s.recipes }
      (.ok [field "LOAD" (numText q.load), field "STATE" "AUTHORIZED".toList,
        field "POS" (numText ((s.armQueue q.arm).length + 1))])) := by
  rw [execAuthorize, request_accepted hs hq h.not_refused, authorizeAnswer_accept, authorizeAccept_eq]

/-- Settles O10: the checks passed give R18's effect, and the new record takes its values from the arm's definition
and the stored recipe. -/
theorem authorizeCreatesTheRecord : Obligations.AuthorizeCreatesTheRecord := by
  intro f q d r s hs hq hd hlock hlane hr hact heth hinj hmin hshare hnew htable hqueue
  have passes : AuthorizePasses q d r s :=
    ⟨hd, hlock, hlane, hr, hact, heth, hinj, hmin, hshare, hnew, htable, hqueue⟩
  rw [exec_authorize, execAuthorize_accepted hs hq passes, newLoad, State.defn_of_some hd, hr]
  rfl

/-! ### Texts of the reports -/

theorem numberedFields_map {α : Type} (k : String) (g : α → Chars) (l : List α) :
    numberedFields k (l.map g) = l.mapIdx fun i x => (k.toList ++ numText (i + 1), g x) := by
  simp [numberedFields, keyN, List.mapIdx_eq_zipIdx_map, List.zipIdx_map]

theorem joinWith_two (c : Char) (u v : Chars) : joinWith c [u, v] = u ++ c :: v := rfl

theorem joinWith_three (c : Char) (u v w : Chars) : joinWith c [u, v, w] = u ++ c :: v ++ c :: w := by
  simp [joinWith]

theorem joinWith_four (c : Char) (u v w x : Chars) :
    joinWith c [u, v, w, x] = u ++ c :: v ++ c :: w ++ c :: x := by
  simp [joinWith]

theorem numText_allCauses_length : numText allCauses.length = "16".toList := by decide

theorem contactText_eq (x : Contact) :
    contactText x = if x = .closed then "CLOSED".toList else "OPEN".toList := by
  cases x <;> rfl

/-- The eight attention flags, taken by their place in the table or by their source (section 10.3). -/
theorem any_finRange_eq_any_allSources (p : Fin 8 → Bool) :
    (List.finRange 8).any p = allSources.any fun x => p x.index := by
  have h : List.finRange 8 = allSources.map Source.index := by decide
  rw [h, List.any_map]
  rfl

/-- The attention line of a module with its supply (R201). -/
theorem State.attentionLine_powered {s : State} (h : s.powered = true) :
    s.attentionLine = (s.attention.master && allSources.any fun x =>
      s.attention.pending[x.index] && s.attention.enabled[x.index]) := by
  rw [State.attentionLine, any_finRange_eq_any_allSources, h, Bool.true_and]

/-! ### Requests without fields (R4, R43, R147, R185, R202, R210) -/

section
variable {answer : Unit → State → Response} {s : State}

theorem report_nothing (hs : s.ready) :
    report (parseNothing []) answer s = .next (s.answered s (answer () s)) :=
  request_accepted hs rfl rfl

/-- A request without fields is refused where it carries any. -/
theorem report_fields {f : List Chars} (hs : s.ready) (hf : f ≠ []) :
    report (parseNothing f) answer s = .next (s.answered s (.no .format)) := by
  refine request_misformed hs ?_
  cases f with
  | nil => exact absurd rfl hf
  | cons t ts => rfl

end

theorem exec_listLoads (f : List Chars) (s : State) :
    exec (.listLoads f) s = report (parseNothing f) listLoadsAnswer s := rfl

theorem exec_listRecipes (f : List Chars) (s : State) :
    exec (.listRecipes f) s = report (parseNothing f) listRecipesAnswer s := rfl

theorem exec_getHeader (f : List Chars) (s : State) :
    exec (.getHeader f) s = report (parseNothing f) getHeaderAnswer s := rfl

theorem exec_getCauses (f : List Chars) (s : State) :
    exec (.getCauses f) s = report (parseNothing f) getCausesAnswer s := rfl

theorem exec_getAttention (f : List Chars) (s : State) :
    exec (.getAttention f) s = report (parseNothing f) getAttentionAnswer s := rfl

theorem exec_getIdent (f : List Chars) (s : State) :
    exec (.getIdent f) s = report (parseNothing f) getIdentAnswer s := rfl

/-- R4, R43, R147, R185, R202, R210: each of the six is refused with FORMAT where it carries a field. -/
theorem exec_report_fields {f : List Chars} {s : State} (hs : s.ready) (hf : f ≠ []) :
    ∀ c ∈ [Instr.listLoads f, .listRecipes f, .getHeader f, .getCauses f, .getAttention f, .getIdent f],
      exec c s = .next (s.answered s (.no .format)) := by
  intro c hc
  simp only [List.mem_cons, List.not_mem_nil, or_false] at hc
  rcases hc with rfl | rfl | rfl | rfl | rfl | rfl
  · rw [exec_listLoads, report_fields hs hf]
  · rw [exec_listRecipes, report_fields hs hf]
  · rw [exec_getHeader, report_fields hs hf]
  · rw [exec_getCauses, report_fields hs hf]
  · rw [exec_getAttention, report_fields hs hf]
  · rw [exec_getIdent, report_fields hs hf]

/-- Settles O33, report by report: the request answers its fields, and those are the ones its rule names. -/
theorem tablesAreReported : Obligations.TablesAreReported := by
  intro s hs
  refine ⟨fun f hf => exec_report_fields hs hf, ?loads, ?recipes, ?header, ?causes, ?attention, ?ident⟩
  case loads =>
    rw [exec_listLoads, report_nothing hs]
    simp only [listLoadsAnswer, numberedFields_map, joinWith_three, List.cons_append, List.nil_append]
  case recipes =>
    rw [exec_listRecipes, report_nothing hs]
    simp only [listRecipesAnswer, recipeStateText, numberedFields_map, joinWith_four, List.cons_append,
      List.nil_append]
  case header =>
    rw [exec_getHeader, report_nothing hs]
    simp only [getHeaderAnswer, pressureUseText, pressureStateText, Header.effCap, numberedFields_map,
      joinWith_three, contactText_eq]
  case causes =>
    rw [exec_getCauses, report_nothing hs]
    simp only [getCausesAnswer, numText_allCauses_length, numberedFields_map, joinWith_two, List.cons_append,
      List.nil_append]
  case attention =>
    rw [exec_getAttention, report_nothing hs]
    simp only [getAttentionAnswer, sourcesText, onOff, State.attentionLine_powered hs.1]
  case ident =>
    rw [exec_getIdent, report_nothing hs]
    simp only [getIdentAnswer, Link.address, contactText_eq]

end Sys2Proof.Machine
end

section
/-! PROOFS. The computation of grants (R152): what one filling hands out, and to whom. -/

namespace Sys2Proof.Machine

/-! ### Claims that are still open -/

/-- The claims no round has satisfied yet. -/
def openClaims (cs : List Claim) : List Claim := cs.filter fun c => !c.satisfied

/-- What the open claims still ask for. -/
def openDemand (cs : List Claim) : Nat := ((openClaims cs).map (·.part.demand)).sum

/-- What the satisfied claims have been granted. -/
def settledGrant (cs : List Claim) : Nat := ((cs.filter (·.satisfied)).map (·.part.grant)).sum

/-- The claims between two rounds, the last of which had the fair share `fair`: a satisfied claim has the whole of a
demand up to that share, and enough remains to give every open claim the share. -/
structure Rounds (fair remaining : Nat) (cs : List Claim) : Prop where
  settled : ∀ c ∈ cs, c.satisfied = true → c.part.grant = c.part.demand ∧ c.part.demand ≤ fair
  enough  : fair * (openClaims cs).length ≤ remaining

/-- What a filling from `remaining` leaves of the claims `cs`: who claims and how much stands; a demand up to one fair
share, no less than the share `last` of the round before, is granted whole, and the claims above it get the share, the
first of them one more. -/
structure Filled (last remaining : Nat) (cs gs : List Claim) : Prop where
  arms    : gs.map (·.part.arm) = cs.map (·.part.arm)
  demands : gs.map (·.part.demand) = cs.map (·.part.demand)
  total   : (gs.map (·.part.grant)).sum = settledGrant cs + min remaining (openDemand cs)
  share   : ∃ fair left, last ≤ fair ∧ remaining / (openClaims cs).length ≤ fair ∧
    (∀ c ∈ gs, c.part.demand ≤ fair → c.part.grant = c.part.demand) ∧
    (gs.filter fun c => decide (fair < c.part.demand)).map (·.part.grant) =
      List.replicate left (fair + 1) ++
        List.replicate ((gs.filter fun c => decide (fair < c.part.demand)).length - left) fair

/-! ### The capped claims (R152, steps 5 and 6) -/

section
variable {fair : Nat}

theorem capClaims_arms (left : Nat) (cs : List Claim) :
    (capClaims fair left cs).map (·.part.arm) = cs.map (·.part.arm) := by
  induction cs generalizing left with
  | nil => rfl
  | cons c cs ih =>
    rw [capClaims.eq_def]
    dsimp only
    split
    · simp [ih]
    · split <;> simp [ih]

theorem capClaims_demands (left : Nat) (cs : List Claim) :
    (capClaims fair left cs).map (·.part.demand) = cs.map (·.part.demand) := by
  induction cs generalizing left with
  | nil => rfl
  | cons c cs ih =>
    rw [capClaims.eq_def]
    dsimp only
    split
    · simp [ih]
    · split <;> simp [ih]

/-- The fair share and the leftover are handed out whole. -/
theorem capClaims_total {left : Nat} {cs : List Claim} (h : left ≤ (openClaims cs).length) :
    ((capClaims fair left cs).map (·.part.grant)).sum =
      settledGrant cs + fair * (openClaims cs).length + left := by
  induction cs generalizing left with
  | nil => simp_all [capClaims, settledGrant, openClaims]
  | cons c cs ih =>
    simp only [openClaims, settledGrant] at h ih ⊢
    cases hc : c.satisfied
    · simp only [List.filter_cons, hc, Bool.not_false, if_true, List.length_cons] at h
      cases left with
      | zero => simp [capClaims, hc, ih (Nat.zero_le _), Nat.mul_add]; omega
      | succ n => simp [capClaims, hc, ih (left := n) (by omega), Nat.mul_add]; omega
    · simp [hc] at h
      simp [capClaims, hc, ih h]
      omega

/-- A claim up to the fair share stands as it was. -/
theorem capClaims_settled {left : Nat} {cs : List Claim}
    (hs : ∀ c ∈ cs, c.satisfied = true → c.part.grant = c.part.demand)
    (ho : ∀ c ∈ cs, c.satisfied = false → fair < c.part.demand) :
    ∀ c ∈ capClaims fair left cs, c.part.demand ≤ fair → c.part.grant = c.part.demand := by
  induction cs generalizing left with
  | nil => simp [capClaims]
  | cons c cs ih =>
    simp only [List.mem_cons, forall_eq_or_imp] at hs ho
    have ih' := fun left => ih (left := left) hs.2 ho.2
    cases hsat : c.satisfied
    · have hc : ¬ c.part.demand ≤ fair := Nat.not_le.mpr (ho.1 hsat)
      cases left <;> simpa [capClaims, hsat, hc] using ih' _
    · simpa [capClaims, hsat, hs.1 hsat] using ih' left

/-- The claims above the fair share get it, the first of them one more until the leftover is exhausted. -/
theorem capClaims_capped {left : Nat} {cs : List Claim}
    (hs : ∀ c ∈ cs, c.satisfied = true → c.part.demand ≤ fair)
    (ho : ∀ c ∈ cs, c.satisfied = false → fair < c.part.demand) (h : left ≤ (openClaims cs).length) :
    ((capClaims fair left cs).filter fun c => decide (fair < c.part.demand)).map (·.part.grant) =
      List.replicate left (fair + 1) ++ List.replicate ((openClaims cs).length - left) fair := by
  induction cs generalizing left with
  | nil => simp_all [capClaims, openClaims]
  | cons c cs ih =>
    have ih' := fun left => ih (left := left) (fun x hx => hs x (by simp [hx])) fun x hx => ho x (by simp [hx])
    simp only [openClaims] at h ih' ⊢
    cases hsat : c.satisfied
    · have hc := ho c (by simp) hsat
      simp only [List.filter_cons, hsat, Bool.not_false, if_true, List.length_cons] at h ⊢
      cases left with
      | zero => simp [capClaims, hsat, hc, ih' 0 (Nat.zero_le _), List.replicate_succ]
      | succ n => simp [capClaims, hsat, hc, ih' n (by omega), List.replicate_succ]
    · have hc := hs c (by simp) hsat
      have hn : ¬ fair < c.part.demand := by omega
      simp only [List.filter_cons, hsat, Bool.not_true] at h
      simp [capClaims, hsat, hn, ih' left h]

end

theorem openClaims_demand_ge {fair : Nat} {cs : List Claim}
    (ho : ∀ c ∈ cs, c.satisfied = false → fair < c.part.demand) :
    (fair + 1) * (openClaims cs).length ≤ openDemand cs := by
  have h := List.card_nsmul_le_sum ((openClaims cs).map (·.part.demand)) (fair + 1) (by
    intro d hd
    obtain ⟨c, hc, rfl⟩ := List.mem_map.mp hd
    simp only [openClaims, List.mem_filter, Bool.not_eq_true'] at hc
    exact ho c hc.1 hc.2)
  simpa [openDemand, Nat.mul_comm] using h

/-- The last round, in which no open claim is within the fair share. -/
theorem capClaims_filled {last remaining fair : Nat} {cs : List Claim} (hopen : openClaims cs ≠ [])
    (hfair : remaining / (openClaims cs).length = fair) (hlast : last ≤ fair) (h : Rounds fair remaining cs)
    (ho : ∀ c ∈ cs, c.satisfied = false → fair < c.part.demand) :
    Filled last remaining cs (capClaims fair (remaining - fair * (openClaims cs).length) cs) := by
  have hmod := Nat.lt_mul_div_succ remaining (List.length_pos_of_ne_nil hopen)
  rw [hfair, Nat.mul_comm] at hmod
  have hge := openClaims_demand_ge ho
  have henough := h.enough
  rw [Nat.add_mul] at hmod hge
  have hleft : remaining - fair * (openClaims cs).length ≤ (openClaims cs).length := by omega
  have hcap := capClaims_capped (fun c hc hs => (h.settled c hc hs).2) ho hleft
  have hlen := congrArg List.length hcap
  simp only [List.length_map, List.length_append, List.length_replicate] at hlen
  refine ⟨capClaims_arms _ _, capClaims_demands _ _, ?_, fair,
    remaining - fair * (openClaims cs).length, hlast, hfair.le, ?_, ?_⟩
  · rw [capClaims_total hleft]
    omega
  · exact capClaims_settled (fun c hc hs => (h.settled c hc hs).1) ho
  · rw [hcap, hlen]
    congr 2
    omega

/-! ### One round (R152, steps 3 and 4) -/

theorem Claim.satisfy_part (fair : Nat) (c : Claim) :
    (c.satisfy fair).part.arm = c.part.arm ∧ (c.satisfy fair).part.demand = c.part.demand := by
  unfold Claim.satisfy
  split <;> exact ⟨rfl, rfl⟩

theorem Claim.satisfy_of_settled {fair : Nat} {c : Claim} (h : c.satisfied = true) : c.satisfy fair = c := by
  simp [Claim.satisfy, h]

theorem Claim.satisfy_of_within {fair : Nat} {c : Claim} (h : c.satisfied = false) (hd : c.part.demand ≤ fair) :
    c.satisfy fair = { part := { c.part with grant := c.part.demand }, satisfied := true } := by
  simp [Claim.satisfy, h, hd]

theorem Claim.satisfy_of_above {fair : Nat} {c : Claim} (hd : fair < c.part.demand) : c.satisfy fair = c := by
  simp [Claim.satisfy, hd]

/-- The open claims within a fair share: those a round with that share satisfies. -/
def withinShare (fair : Nat) (cs : List Claim) : List Claim :=
  (openClaims cs).filter fun c => decide (c.part.demand ≤ fair)

section
variable (fair : Nat) (cs : List Claim)

theorem openClaims_satisfy :
    openClaims (cs.map (Claim.satisfy fair)) = (openClaims cs).filter fun c => decide (fair < c.part.demand) := by
  induction cs with
  | nil => rfl
  | cons c cs ih =>
    simp only [openClaims] at ih ⊢
    cases hs : c.satisfied
    · by_cases hd : c.part.demand ≤ fair
      · have hn : ¬ fair < c.part.demand := by omega
        simp [Claim.satisfy_of_within hs hd, hs, hn, ih]
      · have hn : fair < c.part.demand := by omega
        simp [Claim.satisfy_of_above hn, hs, hn, ih]
    · simp [Claim.satisfy_of_settled hs, hs, ih]

theorem length_openClaims_satisfy :
    (openClaims (cs.map (Claim.satisfy fair))).length + (withinShare fair cs).length = (openClaims cs).length := by
  rw [openClaims_satisfy, withinShare]
  induction openClaims cs with
  | nil => rfl
  | cons c cs ih =>
    by_cases hd : c.part.demand ≤ fair
    · have hn : ¬ fair < c.part.demand := by omega
      simp [hd, hn]; omega
    · have hn : fair < c.part.demand := by omega
      simp [hd, hn]; omega

theorem openDemand_satisfy :
    openDemand (cs.map (Claim.satisfy fair)) + ((withinShare fair cs).map (·.part.demand)).sum =
      openDemand cs := by
  simp only [openDemand, openClaims_satisfy, withinShare]
  induction openClaims cs with
  | nil => rfl
  | cons c cs ih =>
    by_cases hd : c.part.demand ≤ fair
    · have hn : ¬ fair < c.part.demand := by omega
      simp [hd, hn]; omega
    · have hn : fair < c.part.demand := by omega
      simp [hd, hn]; omega

theorem settledGrant_satisfy :
    settledGrant (cs.map (Claim.satisfy fair)) =
      settledGrant cs + ((withinShare fair cs).map (·.part.demand)).sum := by
  induction cs with
  | nil => rfl
  | cons c cs ih =>
    simp only [settledGrant, withinShare, openClaims] at ih ⊢
    cases hs : c.satisfied
    · by_cases hd : c.part.demand ≤ fair
      · simp [Claim.satisfy_of_within hs hd, hs, hd, ih]; omega
      · have hn : fair < c.part.demand := by omega
        simp [Claim.satisfy_of_above hn, hs, hd, ih]
    · simp [Claim.satisfy_of_settled hs, hs, ih]; omega

theorem withinShare_demand_le :
    ((withinShare fair cs).map (·.part.demand)).sum ≤ fair * (withinShare fair cs).length := by
  have h := List.sum_le_card_nsmul ((withinShare fair cs).map (·.part.demand)) fair (by
    intro d hd
    obtain ⟨c, hc, rfl⟩ := List.mem_map.mp hd
    simp only [withinShare, List.mem_filter, decide_eq_true_eq] at hc
    exact hc.2)
  simpa [Nat.mul_comm] using h

end

/-- A round keeps what holds between two rounds. -/
theorem Rounds.satisfy {last remaining : Nat} {cs : List Claim} (h : Rounds last remaining cs)
    (hle : last ≤ remaining / (openClaims cs).length) :
    let fair := remaining / (openClaims cs).length
    Rounds fair (remaining - ((withinShare fair cs).map (·.part.demand)).sum) (cs.map (Claim.satisfy fair)) := by
  intro fair
  refine ⟨?_, ?_⟩
  · intro c hc hs
    obtain ⟨x, hx, rfl⟩ := List.mem_map.mp hc
    cases hxs : x.satisfied
    · by_cases hd : x.part.demand ≤ fair
      · rw [Claim.satisfy_of_within hxs hd]
        exact ⟨rfl, hd⟩
      · rw [Claim.satisfy_of_above (by omega), hxs] at hs
        cases hs
    · rw [Claim.satisfy_of_settled hxs]
      have := h.settled x hx hxs
      exact ⟨this.1, this.2.trans hle⟩
  · have hlen := length_openClaims_satisfy fair cs
    have hsum := withinShare_demand_le fair cs
    have hall : fair * (openClaims cs).length ≤ remaining := Nat.div_mul_le_self _ _
    rw [← hlen, Nat.mul_add] at hall
    omega

/-- A filling after a round is a filling of the claims before it. -/
theorem Filled.of_satisfy {last remaining fair : Nat} {cs gs : List Claim}
    (hfair : remaining / (openClaims cs).length = fair) (hlast : last ≤ fair)
    (h : Filled fair (remaining - ((withinShare fair cs).map (·.part.demand)).sum)
      (cs.map (Claim.satisfy fair)) gs) : Filled last remaining cs gs := by
  have hsum := withinShare_demand_le fair cs
  have hlen := length_openClaims_satisfy fair cs
  have hdem := openDemand_satisfy fair cs
  have hall : fair * (openClaims cs).length ≤ remaining := by rw [← hfair]; exact Nat.div_mul_le_self _ _
  rw [← hlen, Nat.mul_add] at hall
  refine ⟨?_, ?_, ?_, ?_⟩
  · rw [h.arms, List.map_map]
    exact List.map_congr_left fun c _ => (c.satisfy_part fair).1
  · rw [h.demands, List.map_map]
    exact List.map_congr_left fun c _ => (c.satisfy_part fair).2
  · rw [h.total, settledGrant_satisfy]
    omega
  · obtain ⟨best, left, hbest, -, hwhole, hcut⟩ := h.share
    exact ⟨best, left, hlast.trans hbest, hfair.trans_le hbest, hwhole, hcut⟩

/-! ### Every round -/

theorem fillRounds_succ (n remaining : Nat) (cs : List Claim) :
    fillRounds (n + 1) remaining cs =
      if openClaims cs = [] then cs
      else if withinShare (remaining / (openClaims cs).length) cs = [] then
        capClaims (remaining / (openClaims cs).length)
          (remaining - remaining / (openClaims cs).length * (openClaims cs).length) cs
      else fillRounds n
        (remaining - ((withinShare (remaining / (openClaims cs).length) cs).map (·.part.demand)).sum)
        (cs.map (Claim.satisfy (remaining / (openClaims cs).length))) := by
  rw [fillRounds]
  simp only [List.isEmpty_iff]
  rfl

/-- With every claim satisfied nothing is left to hand out. -/
theorem Rounds.filled_of_closed {last remaining : Nat} {cs : List Claim} (h : Rounds last remaining cs)
    (hopen : openClaims cs = []) : Filled last remaining cs cs := by
  have hsat : ∀ c ∈ cs, c.satisfied = true := by
    simpa [openClaims, List.filter_eq_nil_iff] using hopen
  have hall : cs.filter (·.satisfied) = cs := List.filter_eq_self.mpr hsat
  have hnone : cs.filter (fun c => decide (last < c.part.demand)) = [] := by
    simp only [List.filter_eq_nil_iff, decide_eq_true_eq, Nat.not_lt]
    exact fun c hc => (h.settled c hc (hsat c hc)).2
  refine ⟨rfl, rfl, by simp [settledGrant, openDemand, hopen, hall], last, 0, le_refl _, by simp [hopen], ?_, ?_⟩
  · exact fun c hc _ => (h.settled c hc (hsat c hc)).1
  · simp [hnone]

theorem withinShare_eq_nil {fair : Nat} {cs : List Claim} :
    withinShare fair cs = [] ↔ ∀ c ∈ cs, c.satisfied = false → fair < c.part.demand := by
  simp only [withinShare, openClaims, List.filter_filter, List.filter_eq_nil_iff, Bool.and_eq_true,
    decide_eq_true_eq, Bool.not_eq_true', not_and]
  exact forall₂_congr fun c _ => ⟨fun h hs => by_contra fun hd => h (by omega) hs, fun h hd hs => by
    have := h hs; omega⟩

/-- The rounds of R152 fill the claims, where there are more rounds than open claims: each round but the last satisfies
one. The fair share does not fall from round to round. -/
theorem fillRounds_filled {rounds last remaining : Nat} {cs : List Claim}
    (hr : (openClaims cs).length < rounds) (h : Rounds last remaining cs) :
    Filled last remaining cs (fillRounds rounds remaining cs) := by
  induction rounds generalizing last remaining cs with
  | zero => omega
  | succ n ih =>
    rw [fillRounds_succ]
    by_cases hopen : openClaims cs = []
    · rw [if_pos hopen]
      exact h.filled_of_closed hopen
    · rw [if_neg hopen]
      have hlast : last ≤ remaining / (openClaims cs).length :=
        (Nat.le_div_iff_mul_le (List.length_pos_of_ne_nil hopen)).mpr h.enough
      split
      · rename_i hnow
        exact capClaims_filled hopen rfl hlast
          ⟨fun c hc hs => ⟨(h.settled c hc hs).1, (h.settled c hc hs).2.trans hlast⟩, Nat.div_mul_le_self _ _⟩
          (withinShare_eq_nil.mp hnow)
      · rename_i hnow
        have hlen := length_openClaims_satisfy (remaining / (openClaims cs).length) cs
        have hpos := List.length_pos_of_ne_nil hnow
        exact Filled.of_satisfy rfl hlast (ih (by omega) (h.satisfy hlast))

/-! ### The grants (R152) -/

/-- The claims a computation of grants begins with: every participant's, none satisfied. -/
def claimsOf (parts : List Part) : List Claim := parts.map fun p => { part := p, satisfied := false }

theorem openClaims_claimsOf (parts : List Part) : openClaims (claimsOf parts) = claimsOf parts := by
  simp [openClaims, claimsOf, List.filter_map, Function.comp_def]

@[simp] theorem length_claimsOf (parts : List Part) : (claimsOf parts).length = parts.length := by
  simp [claimsOf]

theorem map_part_claimsOf {α : Type} (f : Part → α) (parts : List Part) :
    (claimsOf parts).map (fun c => f c.part) = parts.map f := by
  simp [claimsOf]

/-- The claims a computation of grants ends with. -/
theorem fillGrants_filled (cap : Nat) (parts : List Part) :
    ∃ gs, fillGrants cap parts = gs.map (·.part) ∧ Filled 0 cap (claimsOf parts) gs := by
  refine ⟨_, rfl, fillRounds_filled (last := 0) ?_ ⟨?_, by simp⟩⟩
  · show (openClaims (claimsOf parts)).length < _
    rw [openClaims_claimsOf, length_claimsOf]
    exact Nat.lt_succ_self _
  · intro c hc hs
    obtain ⟨p, -, rfl⟩ := List.mem_map.mp hc
    cases hs

theorem fillGrants_arms (cap : Nat) (parts : List Part) :
    (fillGrants cap parts).map (·.arm) = parts.map (·.arm) := by
  obtain ⟨gs, he, h⟩ := fillGrants_filled cap parts
  have := h.arms.trans (map_part_claimsOf Part.arm parts)
  simpa [he, Function.comp_def] using this

theorem fillGrants_demands (cap : Nat) (parts : List Part) :
    (fillGrants cap parts).map (·.demand) = parts.map (·.demand) := by
  obtain ⟨gs, he, h⟩ := fillGrants_filled cap parts
  have := h.demands.trans (map_part_claimsOf Part.demand parts)
  simpa [he, Function.comp_def] using this

/-- The grants hand out the lesser of the capacity and the sum of the demands. -/
theorem fillGrants_total (cap : Nat) (parts : List Part) :
    ((fillGrants cap parts).map (·.grant)).sum = min cap (parts.map (·.demand)).sum := by
  obtain ⟨gs, he, h⟩ := fillGrants_filled cap parts
  have := h.total
  simp only [settledGrant, openDemand, openClaims_claimsOf, map_part_claimsOf] at this
  simpa [he, claimsOf, List.filter_map, Function.comp_def] using this

/-- There is one fair share, no less than the whole part of an equal one. -/
theorem fillGrants_share (cap : Nat) (parts : List Part) :
    ∃ fair left, cap / parts.length ≤ fair ∧
      (∀ p ∈ fillGrants cap parts, p.demand ≤ fair → p.grant = p.demand) ∧
      ((fillGrants cap parts).filter fun p => decide (fair < p.demand)).map (·.grant) =
        List.replicate left (fair + 1) ++ List.replicate
          (((fillGrants cap parts).filter fun p => decide (fair < p.demand)).length - left) fair := by
  obtain ⟨gs, he, h⟩ := fillGrants_filled cap parts
  obtain ⟨fair, left, -, hle, hwhole, hcut⟩ := h.share
  refine ⟨fair, left, by simpa [openClaims_claimsOf] using hle, ?_, ?_⟩
  · simpa [he] using hwhole
  · simpa [he, List.filter_map, Function.comp_def] using hcut

/-- A grant is the demand, or the fair share or one more where the demand is above it. -/
theorem grant_of_share {fair left : Nat} {g : List Part} (hwhole : ∀ p ∈ g, p.demand ≤ fair → p.grant = p.demand)
    (hcut : (g.filter fun p => decide (fair < p.demand)).map (·.grant) =
      List.replicate left (fair + 1) ++
        List.replicate ((g.filter fun p => decide (fair < p.demand)).length - left) fair) :
    ∀ p ∈ g, p.grant = p.demand ∨ (fair ≤ p.grant ∧ p.grant ≤ p.demand) := by
  intro p hp
  by_cases hd : p.demand ≤ fair
  · exact .inl (hwhole p hp hd)
  · have hmem : p.grant ∈ (g.filter fun p => decide (fair < p.demand)).map (·.grant) :=
      List.mem_map_of_mem (List.mem_filter.mpr ⟨hp, by simpa using hd⟩)
    rw [hcut, List.mem_append, List.mem_replicate, List.mem_replicate] at hmem
    omega

theorem fillGrants_grant_le (cap : Nat) (parts : List Part) : ∀ p ∈ fillGrants cap parts, p.grant ≤ p.demand := by
  obtain ⟨fair, left, -, hwhole, hcut⟩ := fillGrants_share cap parts
  intro p hp
  have := grant_of_share hwhole hcut p hp
  omega

/-- Settles O59: the rounds keep one fair share that does not fall, and the last of them hands out what remains. -/
theorem fillingSharesTheCapacity : Obligations.FillingSharesTheCapacity := by
  intro cap parts g
  obtain ⟨fair, left, hle, hwhole, hcut⟩ := fillGrants_share cap parts
  refine ⟨fillGrants_arms cap parts, fillGrants_demands cap parts, fillGrants_grant_le cap parts,
    fillGrants_total cap parts, ?_, fair, left, hwhole, hcut⟩
  intro p hp hlt
  have := grant_of_share hwhole hcut p hp
  omega

end Sys2Proof.Machine
end

section
/-! PROOFS. What every operation on loads in progress keeps of the header's members (R150, R154), of the valve commands
(R133) and of the grants (R152). -/

namespace Sys2Proof.Machine

/-! ### Heads -/

theorem State.head_congr {s t : State} (h : t.loads = s.loads) (a : ArmId) : t.head a = s.head a := by
  simp [State.head, h]

theorem State.running_congr {s t : State} (h : t.loads = s.loads) (a : ArmId) : t.running a = s.running a := by
  simp [State.running, State.head_congr h]

theorem State.headIs_congr {s t : State} {a : ArmId} (h : t.head a = s.head a) (p : LoadState → Bool) :
    t.headIs a p = s.headIs a p := by
  simp [State.headIs, h]

theorem State.head_some {s : State} {a : ArmId} {l : Load} (h : s.head a = some l) :
    l ∈ s.loads ∧ l.arm = a ∧ l.state ≠ .ended := by
  have hp := List.find?_some h
  simp only [Bool.and_eq_true, beq_iff_eq, bne_iff_ne] at hp
  exact ⟨List.mem_of_find?_eq_some h, hp⟩

theorem State.headIs_of_head {s : State} {a : ArmId} {l : Load} (h : s.head a = some l) (p : LoadState → Bool) :
    s.headIs a p = p l.state := by
  simp [State.headIs, h]

theorem State.running_of_head {s : State} {a : ArmId} {l : Load} (h : s.head a = some l) :
    s.running a = if l.state.inProgress then some l else none := by
  simp [State.running, h, Option.filter]

theorem State.running_some {s : State} {a : ArmId} {l : Load} (h : s.running a = some l) :
    s.head a = some l ∧ l.state.inProgress = true := by
  simpa [State.running, Option.filter_eq_some_iff] using h

theorem State.running_isSome (s : State) (a : ArmId) :
    (s.running a).isSome = s.headIs a LoadState.inProgress := by
  cases h : s.head a with
  | none => simp [State.running, State.headIs, h]
  | some l => rw [State.running_of_head h, State.headIs_of_head h]; cases l.state.inProgress <;> rfl

theorem State.head_of_running_none {s : State} {a : ArmId} {l : Load} (h : s.running a = none)
    (hl : s.head a = some l) : l.state.inProgress = false := by
  rw [State.running_of_head hl] at h
  by_contra hp
  simp [hp] at h

/-- The head loads after an update of one that neither ends it nor moves it to another arm. -/
theorem State.modHead_head {a : ArmId} {f : Load → Load} {s : State}
    (h : ∀ l, l.state ≠ .ended → (f l).arm = l.arm ∧ (f l).state ≠ .ended) (b : ArmId) :
    (s.modHead a f).head b = if b = a then (s.head a).map f else s.head b := by
  by_cases hb : b = a
  · subst hb
    rw [if_pos rfl]
    refine find?_updFirst fun l _ hp => ?_
    simp only [Bool.and_eq_true, beq_iff_eq, bne_iff_ne] at hp ⊢
    exact ⟨(h l hp.2).1.trans hp.1, (h l hp.2).2⟩
  · rw [if_neg hb]
    refine find?_updFirst_of_ne fun l _ hp => ?_
    simp only [Bool.and_eq_true, beq_iff_eq, bne_iff_ne] at hp
    have hab : ¬ a = b := fun e => hb e.symm
    simp [(h l hp.2).1, hp.1, hab]

/-- The head loads of the other arms after an update of one that does not move it to another arm. -/
theorem State.modHead_head_ne {a b : ArmId} {f : Load → Load} {s : State}
    (h : ∀ l, l.state ≠ .ended → (f l).arm = l.arm) (hb : b ≠ a) : (s.modHead a f).head b = s.head b := by
  refine find?_updFirst_of_ne fun l _ hp => ?_
  simp only [Bool.and_eq_true, beq_iff_eq, bne_iff_ne] at hp
  have hab : ¬ a = b := fun e => hb e.symm
  simp [h l hp.2, hp.1, hab]

/-! ### The valve commands of one arm (R133) -/

/-- R133 for one arm. -/
def State.armValvesOk (s : State) (a : ArmId) : Prop :=
  (s.headIs a LoadState.delivers = false → (s.arm a).valveBase = 0 ∧ (s.arm a).valveEth = 0) ∧
    ((s.head a).any Load.inBody = false → (s.arm a).valveEth = 0)

theorem State.armValvesOk_congr {s t : State} {a : ArmId} (hh : t.head a = s.head a)
    (hb : (t.arm a).valveBase = (s.arm a).valveBase) (he : (t.arm a).valveEth = (s.arm a).valveEth)
    (h : s.armValvesOk a) : t.armValvesOk a := by
  simpa only [State.armValvesOk, State.headIs, hh, hb, he] using h

theorem State.armValvesOk_of_shut {s : State} {a : ArmId} (hb : (s.arm a).valveBase = 0)
    (he : (s.arm a).valveEth = 0) : s.armValvesOk a :=
  ⟨fun _ => ⟨hb, he⟩, fun _ => he⟩

theorem State.armValvesOk.shut {s : State} {a : ArmId} (h : s.armValvesOk a)
    (hd : s.headIs a LoadState.delivers = false) : (s.arm a).valveBase = 0 ∧ (s.arm a).valveEth = 0 :=
  h.1 hd

/-! ### The members of the header, but for one arm (R150, R154) -/

/-- The header's members are as R150 and R154 say, but that nothing is said of the head load of arm `a`. -/
structure State.membersOkBut (s : State) (a : ArmId) : Prop where
  queue : ∀ b ∈ s.header.queue, b ≠ a → s.headIs b (· == .admitting) = true
  parts : ∀ p ∈ s.header.parts, p.arm ≠ a → (s.head p.arm).any Load.inBody = true
  queueNodup : s.header.queue.Nodup
  partsNodup : (s.header.parts.map (·.arm)).Nodup
  once : a ∈ s.header.queue → ∀ p ∈ s.header.parts, p.arm ≠ a

theorem State.headerOk.membersOkBut {s : State} (h : s.headerOk) (a : ArmId) : s.membersOkBut a where
  queue := fun b hb _ => h.1 b hb
  parts := fun p hp _ => h.2.1 p hp
  queueNodup := h.2.2.1
  partsNodup := h.2.2.2
  once := fun ha p hp he => by
    have h1 := h.1 a ha
    have h2 := h.2.1 p hp
    rw [he] at h2
    cases hl : s.head a with
    | none => simp [hl] at h2
    | some l =>
      simp only [State.headIs, hl, Option.any_some, Load.inBody, Bool.and_eq_true, beq_iff_eq] at h1 h2
      rw [h1] at h2
      exact absurd h2.1 (by decide)

theorem State.membersOkBut.headerOk {s : State} {a : ArmId} (h : s.membersOkBut a)
    (hq : a ∈ s.header.queue → s.headIs a (· == .admitting) = true)
    (hp : ∀ p ∈ s.header.parts, p.arm = a → (s.head a).any Load.inBody = true) : s.headerOk := by
  refine ⟨fun b hb => ?_, fun p hp' => ?_, h.queueNodup, h.partsNodup⟩
  · by_cases e : b = a
    · subst e; exact hq hb
    · exact h.queue b hb e
  · by_cases e : p.arm = a
    · rw [e]; exact hp p hp' e
    · exact h.parts p hp' e

/-- What the members' rules read of the state. -/
theorem State.membersOkBut_congr {s t : State} {a : ArmId} (hq : t.header.queue = s.header.queue)
    (hp : t.header.parts.map (·.arm) = s.header.parts.map (·.arm)) (hh : ∀ b, b ≠ a → t.head b = s.head b)
    (h : s.membersOkBut a) : t.membersOkBut a := by
  have hmem : ∀ p ∈ t.header.parts, ∃ x ∈ s.header.parts, x.arm = p.arm := fun p hpt =>
    List.mem_map.mp (hp ▸ List.mem_map_of_mem hpt)
  refine ⟨fun b hb hne => ?_, fun p hpt hne => ?_, hq ▸ h.queueNodup, hp ▸ h.partsNodup, fun ha p hpt => ?_⟩
  · rw [State.headIs_congr (hh b hne)]
    exact h.queue b (hq ▸ hb) hne
  · obtain ⟨x, hx, he⟩ := hmem p hpt
    rw [hh p.arm hne, ← he]
    exact h.parts x hx (he ▸ hne)
  · obtain ⟨x, hx, he⟩ := hmem p hpt
    exact he ▸ h.once (hq ▸ ha) x hx

theorem State.headerOk_congr {s t : State} (hq : t.header.queue = s.header.queue)
    (hp : t.header.parts.map (·.arm) = s.header.parts.map (·.arm)) (hh : ∀ b, t.head b = s.head b)
    (h : s.headerOk) : t.headerOk := by
  have hmem : ∀ p ∈ t.header.parts, ∃ x ∈ s.header.parts, x.arm = p.arm := fun p hpt =>
    List.mem_map.mp (hp ▸ List.mem_map_of_mem hpt)
  refine ⟨fun b hb => ?_, fun p hpt => ?_, hq ▸ h.2.2.1, hp ▸ h.2.2.2⟩
  · rw [State.headIs_congr (hh b)]
    exact h.1 b (hq ▸ hb)
  · obtain ⟨x, hx, he⟩ := hmem p hpt
    rw [hh p.arm, ← he]
    exact h.2.1 x hx

/-- An arm whose head load is neither in ADMITTING nor FLOWING in BODY is no member. -/
theorem State.headerOk.not_member {s : State} {a : ArmId} {l : Load} (h : s.headerOk) (hl : s.head a = some l)
    (hs : l.state ≠ .admitting) (hb : l.inBody = false) :
    a ∉ s.header.queue ∧ ∀ p ∈ s.header.parts, p.arm ≠ a := by
  refine ⟨fun ha => ?_, fun p hp he => ?_⟩
  · have := h.1 a ha
    simp [State.headIs, hl, hs] at this
  · have := h.2.1 p hp
    simp [he, hl, hb] at this

/-! ### The relation -/

/-- What an operation on loads in progress keeps, the header's members, the valve commands of each arm and the grants
with it. -/
structure Sound (s t : State) : Prop extends Kept s t where
  header : s.queuesOk → s.headerOk → t.headerOk
  valves : s.queuesOk → ∀ a, s.armValvesOk a → t.armValvesOk a
  grants : s.grantsOk → t.grantsOk

theorem Sound.refl (s : State) : Sound s s := ⟨.refl s, fun _ => id, fun _ _ => id, id⟩

theorem Sound.trans {s t u : State} (h : Sound s t) (g : Sound t u) : Sound s u where
  toKept := h.toKept.trans g.toKept
  header := fun q e => g.header (h.queues q) (h.header q e)
  valves := fun q a e => g.valves (h.queues q) a (h.valves q a e)
  grants := g.grants ∘ h.grants

/-- An operation that leaves the header and every head load as they are, and the valve commands. -/
theorem Sound.of_same {s t : State} (hk : Kept s t) (hh : t.header = s.header) (hl : ∀ a, t.head a = s.head a)
    (hv : ∀ a, (t.arm a).valveBase = (s.arm a).valveBase ∧ (t.arm a).valveEth = (s.arm a).valveEth) :
    Sound s t where
  toKept := hk
  header := fun _ => State.headerOk_congr (by rw [hh]) (by rw [hh]) hl
  valves := fun _ a => State.armValvesOk_congr (hl a) (hv a).1 (hv a).2
  grants := by simp only [State.grantsOk, hh]; exact id

theorem State.modArm_sound {a : ArmId} {f : Arm → Arm} {s : State} (h : ∀ x, ArmKept x (f x))
    (hv : ∀ x, (f x).valveBase = x.valveBase ∧ (f x).valveEth = x.valveEth) : Sound s (s.modArm a f) :=
  .of_same (State.modArm_kept h) rfl (fun _ => rfl) fun b => by
    rw [State.modArm_arm]
    split
    · exact hv _
    · exact ⟨rfl, rfl⟩

theorem State.modFlow_sound (a : ArmId) (f : FlowState → FlowState) (s : State) : Sound s (s.modFlow a f) :=
  State.modArm_sound (fun x => { ArmKept.refl x with }) fun _ => ⟨rfl, rfl⟩

theorem State.modInjector_sound {j : InjId} {f : Injector → Injector} {s : State}
    (h : InjectorKept (s.injector j) (f (s.injector j))) : Sound s (s.modInjector j f) :=
  .of_same (State.modInjector_kept h) rfl (fun _ => rfl) fun _ => ⟨rfl, rfl⟩

theorem State.modLane_sound {n : LaneId} {f : Lane → Lane} {s : State}
    (h : LaneKept (s.lane n) (f (s.lane n))) : Sound s (s.modLane n f) :=
  .of_same (State.modLane_kept h) rfl (fun _ => rfl) fun _ => ⟨rfl, rfl⟩

theorem State.attend_sound (x : Source) (s : State) : Sound s (s.attend x) :=
  .of_same (State.attend_kept x s) rfl (fun _ => rfl) fun _ => ⟨rfl, rfl⟩

theorem State.forAll_sound {α : Type} {l : List α} {f : α → State → State} {s : State}
    (h : ∀ x ∈ l, ∀ t, Sound t (f x t)) : Sound s (State.forAll l f s) :=
  State.forAll_keeps (P := Sound s) (.refl s) fun x hx t ht => ht.trans (h x hx t)

theorem State.forAllFree_sound {α : Type} {l : List α} {f : α → State → State} {s : State}
    (h : ∀ x ∈ l, ∀ t, Sound t (f x t)) : Sound s (State.forAllFree l f s) :=
  State.forAllFree_keeps (P := Sound s)
    (.of_same { Kept.refl s with choices := Nat.le_succ _ } rfl (fun _ => rfl) fun _ => ⟨rfl, rfl⟩)
    fun x hx t ht => ht.trans (h x hx t)

/-- An update of a head load that leaves its state, and leaves it in or out of BODY. -/
theorem State.modHead_sound_of_body {a : ArmId} {f : Load → Load} {s : State}
    (h : ∀ l, l.state ≠ .ended → LoadKept l (f l)) (hs : ∀ l, (f l).state = l.state)
    (hb : ∀ l, s.head a = some l → (f l).inBody = l.inBody) : Sound s (s.modHead a f) := by
  have hhead := State.modHead_head (a := a) (f := f) (s := s)
    fun l hl => ⟨(h l hl).arm, by rw [hs l]; exact hl⟩
  have hsame : ∀ (p : Load → Bool), (∀ l, s.head a = some l → p (f l) = p l) → ∀ b,
      ((s.modHead a f).head b).any p = (s.head b).any p := fun p hp b => by
    rw [hhead b]
    split
    · rename_i e
      rw [e]
      cases hl : s.head a with
      | none => rfl
      | some l => simp [hp l hl]
    · rfl
  have hstate : ∀ (p : LoadState → Bool) b, (s.modHead a f).headIs b p = s.headIs b p := fun p =>
    hsame (fun l => p l.state) fun l _ => by rw [hs l]
  have hbody : ∀ b, ((s.modHead a f).head b).any Load.inBody = (s.head b).any Load.inBody :=
    hsame Load.inBody hb
  exact {
    toKept := State.modHead_kept h
    header := fun _ hk => by simpa only [State.headerOk, hstate, hbody, State.modHead_header] using hk
    valves := fun _ b hk => by simpa only [State.armValvesOk, hstate, hbody, State.modHead_arm] using hk
    grants := id }

/-- An update of a head load that leaves its state and phase. -/
theorem State.modHead_sound {a : ArmId} {f : Load → Load} {s : State}
    (h : ∀ l, l.state ≠ .ended → LoadKept l (f l))
    (hs : ∀ l, (f l).state = l.state ∧ (f l).phase = l.phase) : Sound s (s.modHead a f) :=
  State.modHead_sound_of_body h (fun l => (hs l).1) fun l _ => by simp only [Load.inBody, hs l]

/-- An update of a head load, whatever it does to its state, leaves the members but for that arm. -/
theorem State.membersOkBut.modHead {a : ArmId} {f : Load → Load} {s : State} (hs : s.membersOkBut a)
    (h : ∀ l, l.state ≠ .ended → (f l).arm = l.arm) : (s.modHead a f).membersOkBut a :=
  State.membersOkBut_congr (s := s) rfl rfl (fun _ hb => State.modHead_head_ne h hb) hs

/-- The valve commands of another arm do not follow the update. -/
theorem State.modHead_armValvesOk_ne {a b : ArmId} {f : Load → Load} {s : State}
    (h : ∀ l, l.state ≠ .ended → (f l).arm = l.arm) (hb : b ≠ a) (hv : s.armValvesOk b) :
    (s.modHead a f).armValvesOk b :=
  State.armValvesOk_congr (State.modHead_head_ne h hb) rfl rfl hv

/-! ### Flow split -/

theorem valveCommand_zero (fs : Nat) : valveCommand 0 fs = 0 := by
  have h : fs / (2 * fs) = 0 := Nat.div_eq_zero_iff.mpr (by omega)
  simp [valveCommand, roundHalfUpNat, h]

theorem State.applySplit_of_delivers {s : State} {a : ArmId} {l : Load} (hl : s.head a = some l)
    (hd : l.state.delivers = true) :
    s.applySplit a =
      let q := splitFlow (s.cappedDemand a) l.share (s.ethDemand a) (s.grantOf a)
      let qe := if l.inBody then q * l.share / 10000 else 0
      s.modArm a fun x => x.setFlow q (q - qe) qe := by
  have hp : l.state.inProgress = true := by
    revert hd; cases l.state <;> decide
  simp only [State.applySplit, State.running_of_head hl, hp, if_true, hd]

theorem State.applySplit_of_not {s : State} {a : ArmId} (hd : s.headIs a LoadState.delivers = false) :
    s.applySplit a = s := by
  unfold State.applySplit
  split
  · rfl
  · rename_i l hr
    rw [State.headIs_of_head (State.running_some hr).1] at hd
    simp [hd]

/-- A split leaves the arm's valve commands as R133 says. -/
theorem State.applySplit_settles {s : State} {a : ArmId}
    (h : s.headIs a LoadState.delivers = false → s.armValvesOk a) : (s.applySplit a).armValvesOk a := by
  cases hd : s.headIs a LoadState.delivers with
  | false => rw [State.applySplit_of_not hd]; exact h hd
  | true =>
    cases hl : s.head a with
    | none => simp [State.headIs, hl] at hd
    | some l =>
      rw [State.headIs_of_head hl] at hd
      rw [State.applySplit_of_delivers hl hd]
      refine ⟨fun hn => ?_, fun hn => ?_⟩
      · simp [State.headIs, hl, hd] at hn
      · simp only [State.modArm_head, hl, Option.any_some] at hn
        simp [Arm.setFlow, hn, valveCommand_zero]

/-- A split writes at its own arm alone. -/
theorem State.applySplit_arm_ne {s : State} {a b : ArmId} (hb : b ≠ a) : (s.applySplit a).arm b = s.arm b := by
  unfold State.applySplit
  split
  · rfl
  · split
    · exact State.modArm_arm_ne hb _ _
    · rfl

/-- A split leaves everything but the arm. -/
theorem State.applySplit_eq (a : ArmId) (s : State) : s.applySplit a = { s with arms := (s.applySplit a).arms } := by
  unfold State.applySplit
  split
  · rfl
  · split <;> rfl

@[simp] theorem State.applySplit_loads (a : ArmId) (s : State) : (s.applySplit a).loads = s.loads := by
  rw [State.applySplit_eq]

@[simp] theorem State.applySplit_header (a : ArmId) (s : State) : (s.applySplit a).header = s.header := by
  rw [State.applySplit_eq]

theorem State.applySplit_sound (a : ArmId) (s : State) : Sound s (s.applySplit a) where
  toKept := s.applySplit_kept a
  header := fun _ => State.headerOk_congr (by simp) (by simp) (State.head_congr (by simp))
  valves := fun _ b hv => by
    by_cases hb : b = a
    · subst hb; exact State.applySplit_settles fun _ => hv
    · exact State.armValvesOk_congr (State.head_congr (by simp) b) (by rw [State.applySplit_arm_ne hb])
        (by rw [State.applySplit_arm_ne hb]) hv
  grants := by simp [State.grantsOk]

/-! ### Grants -/

/-- A computation of grants leaves everything but the arms and the grants. -/
theorem State.recomputeGrants_eq (handing : Option ArmId) (s : State) :
    s.recomputeGrants handing =
      { s with
        arms := (s.recomputeGrants handing).arms
        header := { s.header with parts := fillGrants s.header.effCap s.header.parts } } := by
  unfold State.recomputeGrants
  refine State.forAll_keeps (P := fun t => t = { s with
    arms := t.arms, header := { s.header with parts := fillGrants s.header.effCap s.header.parts } }) rfl ?_
  intro a _ t ht
  rw [State.applySplit_eq, ht]

section
variable (handing : Option ArmId) (s : State)

@[simp] theorem State.recomputeGrants_loads : (s.recomputeGrants handing).loads = s.loads := by
  rw [State.recomputeGrants_eq]

@[simp] theorem State.recomputeGrants_queue : (s.recomputeGrants handing).header.queue = s.header.queue := by
  rw [State.recomputeGrants_eq]

theorem State.recomputeGrants_parts :
    (s.recomputeGrants handing).header.parts = fillGrants s.header.effCap s.header.parts := by
  rw [State.recomputeGrants_eq]

@[simp] theorem State.recomputeGrants_effCap : (s.recomputeGrants handing).header.effCap = s.header.effCap := by
  rw [State.recomputeGrants_eq]; rfl

/-- R152: a computation of grants leaves them within demand and capacity, whatever they were. -/
theorem State.recomputeGrants_grantsOk : (s.recomputeGrants handing).grantsOk := by
  refine ⟨?_, ?_⟩
  · rw [State.recomputeGrants_parts]
    exact fillGrants_grant_le _ _
  · rw [State.recomputeGrants_parts, fillGrants_total, State.recomputeGrants_effCap]
    exact min_le_left _ _

theorem State.recomputeGrants_members :
    (s.recomputeGrants handing).header.parts.map (·.arm) = s.header.parts.map (·.arm) := by
  rw [State.recomputeGrants_parts, fillGrants_arms]

theorem State.recomputeGrants_valves (a : ArmId) (h : s.armValvesOk a) :
    (s.recomputeGrants handing).armValvesOk a := by
  unfold State.recomputeGrants
  refine State.forAll_keeps (P := fun t => t.armValvesOk a)
    (State.armValvesOk_congr (s := s) rfl rfl rfl h) fun b _ t ht => ?_
  by_cases hb : a = b
  · subst hb; exact State.applySplit_settles fun _ => ht
  · exact State.armValvesOk_congr (State.head_congr (by simp) a) (by rw [State.applySplit_arm_ne hb])
      (by rw [State.applySplit_arm_ne hb]) ht

theorem State.recomputeGrants_sound : Sound s (s.recomputeGrants handing) where
  toKept := s.recomputeGrants_kept handing
  header := fun _ => State.headerOk_congr (by simp) (s.recomputeGrants_members handing)
    (State.head_congr (by simp))
  valves := fun _ a => s.recomputeGrants_valves handing a
  grants := fun _ => s.recomputeGrants_grantsOk handing

/-- A new list of the same participants, and the grants computed for it. -/
theorem State.modParts_recompute_sound {f : Header → Header} (hset : (f s.header).settings = s.header.settings)
    (hin : (f s.header).input = s.header.input ∧ (f s.header).lost = s.header.lost)
    (hq : (f s.header).queue = s.header.queue)
    (hp : (f s.header).parts.map (·.arm) = s.header.parts.map (·.arm)) :
    Sound s ((s.modHeader f).recomputeGrants handing) where
  toKept := (State.modHeader_kept hset hin).trans (State.recomputeGrants_kept _ _)
  header := fun q h => (State.recomputeGrants_sound handing (s.modHeader f)).header q
    (State.headerOk_congr hq hp (fun _ => rfl) h)
  valves := fun _ a h => State.recomputeGrants_valves _ _ a (State.armValvesOk_congr (s := s) rfl rfl rfl h)
  grants := fun _ => State.recomputeGrants_grantsOk _ _

end

theorem State.formSplit_of_not {s : State} {a : ArmId} (hd : s.headIs a LoadState.delivers = false) :
    s.formSplit a = s := by
  simp [State.formSplit, hd]

/-- A split in full is a split of a state with the same loads, in which the arm has handed its demand. -/
theorem State.formSplit_cases {s : State} {a : ArmId} (hd : s.headIs a LoadState.delivers = true) :
    ∃ t, s.formSplit a = t.applySplit a ∧ Sound s t ∧ t.loads = s.loads := by
  simp only [State.formSplit, hd, if_true]
  split
  · exact ⟨s, rfl, .refl s, rfl⟩
  · split
    · exact ⟨s, rfl, .refl s, rfl⟩
    · refine ⟨_, rfl, State.modParts_recompute_sound _ _ rfl ⟨rfl, rfl⟩ rfl ?_, by simp⟩
      exact updFirst_map fun _ _ _ => rfl

theorem State.formSplit_sound (a : ArmId) (s : State) : Sound s (s.formSplit a) := by
  cases hd : s.headIs a LoadState.delivers with
  | false => rw [State.formSplit_of_not hd]; exact .refl s
  | true =>
    obtain ⟨t, he, hs, -⟩ := State.formSplit_cases hd
    rw [he]
    exact hs.trans (State.applySplit_sound a t)

@[simp] theorem State.formSplit_loads (a : ArmId) (s : State) : (s.formSplit a).loads = s.loads := by
  cases hd : s.headIs a LoadState.delivers with
  | false => rw [State.formSplit_of_not hd]
  | true =>
    obtain ⟨t, he, -, hl⟩ := State.formSplit_cases hd
    rw [he, State.applySplit_loads, hl]

theorem State.formSplit_settles {s : State} {a : ArmId}
    (h : s.headIs a LoadState.delivers = false → s.armValvesOk a) : (s.formSplit a).armValvesOk a := by
  cases hd : s.headIs a LoadState.delivers with
  | false => rw [State.formSplit_of_not hd]; exact h hd
  | true =>
    obtain ⟨t, he, -, hl⟩ := State.formSplit_cases hd
    rw [he]
    refine State.applySplit_settles fun hn => ?_
    rw [State.headIs_congr (State.head_congr hl a), hd] at hn
    cases hn

end Sys2Proof.Machine
end

section
/-! PROOFS. The entry to FLOWING, the admission queue and the participant set keep the header's members, the valve
commands and the grants (R133, R150, R152, R154, R155). -/

namespace Sys2Proof.Machine

/-! ### Operations that stop no load -/

/-- A sound operation after which every load that delivered still does. -/
structure Admits (s t : State) : Prop extends Sound s t where
  delivers : ∀ a, s.headIs a LoadState.delivers = true → t.headIs a LoadState.delivers = true

theorem Admits.refl (s : State) : Admits s s := ⟨.refl s, fun _ => id⟩

theorem Admits.trans {s t u : State} (h : Admits s t) (g : Admits t u) : Admits s u :=
  ⟨h.toSound.trans g.toSound, fun a => g.delivers a ∘ h.delivers a⟩

theorem Admits.of_loads {s t : State} (h : Sound s t) (hl : t.loads = s.loads) : Admits s t :=
  ⟨h, fun a => by rw [State.headIs_congr (State.head_congr hl a)]; exact id⟩

theorem State.modHead_headIs {a : ArmId} {f : Load → Load} {s : State}
    (h : ∀ l, l.state ≠ .ended → (f l).arm = l.arm) (hs : ∀ l, (f l).state = l.state) (p : LoadState → Bool)
    (b : ArmId) : (s.modHead a f).headIs b p = s.headIs b p := by
  simp only [State.headIs]
  rw [State.modHead_head (fun l hl => ⟨h l hl, by rw [hs l]; exact hl⟩)]
  split
  · rename_i e
    subst e
    cases s.head b <;> simp [hs]
  · rfl

theorem State.modHead_admits {a : ArmId} {f : Load → Load} {s : State}
    (h : ∀ l, l.state ≠ .ended → LoadKept l (f l))
    (hs : ∀ l, (f l).state = l.state ∧ (f l).phase = l.phase) : Admits s (s.modHead a f) :=
  ⟨State.modHead_sound h hs, fun b => by
    rw [State.modHead_headIs (fun l hl => (h l hl).arm) fun l => (hs l).1]; exact id⟩

theorem State.modFlow_admits (a : ArmId) (f : FlowState → FlowState) (s : State) : Admits s (s.modFlow a f) :=
  .of_loads (State.modFlow_sound a f s) rfl

theorem State.forAll_admits {α : Type} {l : List α} {f : α → State → State} {s : State}
    (h : ∀ x ∈ l, ∀ t, Admits t (f x t)) : Admits s (State.forAll l f s) :=
  State.forAll_keeps (P := Admits s) (.refl s) fun x hx t ht => ht.trans (h x hx t)

theorem State.recomputeGrants_admits (handing : Option ArmId) (s : State) : Admits s (s.recomputeGrants handing) :=
  .of_loads (s.recomputeGrants_sound handing) (by simp)

theorem State.formSplit_admits (a : ArmId) (s : State) : Admits s (s.formSplit a) :=
  .of_loads (s.formSplit_sound a) (by simp)

theorem State.snapDemand_admits (a : ArmId) (s : State) : Admits s (s.snapDemand a) := by
  unfold State.snapDemand
  split
  · exact .refl s
  · split
    · exact State.modFlow_admits _ _ _
    · exact .refl s

theorem Load.step_kept (n : Nat) {l : Load} (hl : l.state ≠ .ended) : LoadKept l { l with step := n } :=
  .of_plain hl hl ⟨rfl, rfl, rfl, rfl, rfl, rfl, rfl, rfl⟩ ⟨rfl, rfl, rfl, rfl, rfl, rfl⟩ ⟨rfl, rfl, rfl, rfl⟩
    ⟨rfl, rfl, rfl⟩

theorem State.evalProfile_admits (a : ArmId) (s : State) : Admits s (s.evalProfile a) := by
  unfold State.evalProfile
  split
  · exact .refl s
  · dsimp only
    split
    · refine Admits.trans (Admits.trans ?_ (State.modFlow_admits _ _ _)) (State.snapDemand_admits _ _)
      exact State.modHead_admits (fun _ => Load.step_kept _) fun _ => ⟨rfl, rfl⟩
    · exact .refl s

theorem State.testFiring_admits (a : ArmId) (ch : InjId) (s : State) : Admits s (s.testFiring a ch) := by
  unfold State.testFiring
  split
  · exact .refl s
  · split
    · exact .refl s
    · split
      · refine Admits.trans ?_ (.of_loads (State.modInjector_sound (Injector.fire_kept _)) rfl)
        exact State.modHead_admits (fun l hl => Load.modEntry_kept _ hl fun _ => rfl) fun _ => ⟨rfl, rfl⟩
      · exact .refl s

theorem State.testAllFiring_admits (a : ArmId) (s : State) : Admits s (s.testAllFiring a) :=
  State.forAll_admits fun _ _ t => t.testFiring_admits _ _

/-! ### Entry to FLOWING -/

theorem State.modHead_of_none {s : State} {a : ArmId} (f : Load → Load) (h : s.head a = none) :
    s.modHead a f = s := by
  have hn := List.find?_eq_none.mp h
  have : updFirst (fun l : Load => l.arm == a && l.state != .ended) f s.loads = s.loads := by
    rcases updFirst_cases (p := fun l : Load => l.arm == a && l.state != .ended) (f := f) (l := s.loads) with
      ⟨he, -⟩ | ⟨as, x, bs, he, -, hx, -⟩
    · exact he
    · exact absurd hx (hn x (by rw [he]; simp))
  rw [State.modHead, this]

/-- The record that enters FLOWING (R7, R107, R124). -/
def Load.enterFlow (first : Bool) (phase : Phase) (sMax h : Nat) (l : Load) : Load :=
  { l with
    state := .flowing
    phase := phase
    admitFrom := none
    step := if first then 1 else l.step
    share := if phase == .body then shareCommand l.rb l.dev h sMax else 0 }

theorem Load.enterFlow_kept (first : Bool) (phase : Phase) (sMax h : Nat) {l : Load} (hl : l.state ≠ .ended) :
    LoadKept l (l.enterFlow first phase sMax h) :=
  .of_plain hl (by simp [Load.enterFlow]) ⟨rfl, rfl, rfl, rfl, rfl, rfl, rfl, rfl⟩
    ⟨rfl, rfl, rfl, rfl, rfl, rfl⟩ ⟨rfl, rfl, rfl, rfl⟩ ⟨rfl, rfl, rfl⟩

/-- The state in which the head load has entered FLOWING and its flow is still to be split (R7, R124). -/
def State.flowEntered (a : ArmId) (phase : Phase) (s : State) : State :=
  let s1 := s.modHead a fun l =>
    l.enterFlow (!(s.arm a).flow.started) phase (s.defn a).sMax (s.recipeOf l).h
  if (s.arm a).flow.started then s1
  else State.evalProfile a (s1.modFlow a fun f => { f with started := true })

theorem State.enterFlowing_eq (a : ArmId) (phase : Phase) (s : State) :
    s.enterFlowing a phase = State.testAllFiring a (State.formSplit a (s.flowEntered a phase)) := by
  unfold State.enterFlowing State.flowEntered
  cases (s.arm a).flow.started <;> rfl

/-- The entry is an update of the head load, then an evaluation of the profile at most. -/
theorem State.flowEntered_admits (a : ArmId) (phase : Phase) (s : State) :
    Admits (s.modHead a fun l =>
      l.enterFlow (!(s.arm a).flow.started) phase (s.defn a).sMax (s.recipeOf l).h) (s.flowEntered a phase) := by
  unfold State.flowEntered
  dsimp only
  split
  · exact .refl _
  · exact (State.modFlow_admits _ _ _).trans (State.evalProfile_admits _ _)

section
variable {a : ArmId} {phase : Phase} {s : State}

theorem State.enterFlow_head (first : Bool) (phase : Phase) (sMax : Nat) (h : Load → Nat) (b : ArmId) :
    (s.modHead a fun l => l.enterFlow first phase sMax (h l)).head b =
      if b = a then (s.head a).map fun l => l.enterFlow first phase sMax (h l) else s.head b :=
  State.modHead_head (f := fun l => l.enterFlow first phase sMax (h l)) (fun _ _ => ⟨rfl, by simp [Load.enterFlow]⟩) b

/-- A head load that has entered FLOWING delivers, and so does every other that did. -/
theorem State.flowEntered_delivers (b : ArmId) (h : b = a ∧ (s.head a).isSome ∨ s.headIs b LoadState.delivers = true) :
    (s.flowEntered a phase).headIs b LoadState.delivers = true := by
  refine (s.flowEntered_admits a phase).delivers b ?_
  simp only [State.headIs, State.enterFlow_head]
  split
  · rename_i e
    subst e
    cases hl : s.head b with
    | none => simp [hl, State.headIs] at h
    | some l => rfl
  · rename_i e
    simpa [e, State.headIs] using h

theorem State.enterFlowing_delivers (b : ArmId) (h : s.headIs b LoadState.delivers = true) :
    (s.enterFlowing a phase).headIs b LoadState.delivers = true := by
  rw [State.enterFlowing_eq]
  exact ((State.formSplit_admits _ _).trans (State.testAllFiring_admits _ _)).delivers b
    (State.flowEntered_delivers b (.inr h))

theorem State.enterFlowing_valves (q : s.queuesOk) (b : ArmId) (h : s.armValvesOk b) :
    (s.enterFlowing a phase).armValvesOk b := by
  have hk : Kept s _ := State.modHead_kept (s := s) (a := a) fun l hl =>
    Load.enterFlow_kept (!(s.arm a).flow.started) phase (s.defn a).sMax (s.recipeOf l).h hl
  have q1 := hk.queues q
  have hs := s.flowEntered_admits a phase
  have q2 := hs.queues q1
  rw [State.enterFlowing_eq]
  refine (State.testAllFiring_admits a _).valves ((State.formSplit_kept _ _).queues q2) b ?_
  by_cases hb : b = a
  · subst hb
    refine State.formSplit_settles fun hn => ?_
    have hnone : s.head b = none := by
      by_contra hsome
      rw [State.flowEntered_delivers b (.inl ⟨rfl, Option.isSome_iff_ne_none.mpr hsome⟩)] at hn
      cases hn
    refine hs.valves q1 b ?_
    rwa [State.modHead_of_none _ hnone]
  · refine (State.formSplit_sound a _).valves q2 b (hs.valves q1 b ?_)
    exact State.modHead_armValvesOk_ne (fun _ _ => rfl) hb h

theorem State.enterFlowing_grants (h : s.grantsOk) : (s.enterFlowing a phase).grantsOk := by
  rw [State.enterFlowing_eq]
  exact ((State.formSplit_admits _ _).trans (State.testAllFiring_admits _ _)).grants
    ((s.flowEntered_admits a phase).grants h)

/-- The members are as R150 and R154 say once the head load of an arm that waits no longer has entered FLOWING: in BODY
where the arm is a participant. -/
theorem State.enterFlowing_headerOk (q : s.queuesOk) (h : s.membersOkBut a) (hq : a ∉ s.header.queue)
    (hp : ∀ p ∈ s.header.parts, p.arm = a → phase = .body ∧ (s.head a).isSome = true) :
    (s.enterFlowing a phase).headerOk := by
  have hk : Kept s _ := State.modHead_kept (s := s) (a := a) fun l hl =>
    Load.enterFlow_kept (!(s.arm a).flow.started) phase (s.defn a).sMax (s.recipeOf l).h hl
  rw [State.enterFlowing_eq]
  refine (((s.flowEntered_admits a phase).trans (State.formSplit_admits _ _)).trans
    (State.testAllFiring_admits _ _)).header (hk.queues q) ?_
  refine (State.membersOkBut.modHead h fun l _ => ?_).headerOk (fun ha => absurd ha hq) fun p hpm he => ?_
  · rfl
  obtain ⟨hphase, hsome⟩ := hp p hpm he
  rw [State.enterFlow_head, if_pos rfl]
  obtain ⟨l, hl⟩ := Option.isSome_iff_exists.mp hsome
  subst hphase
  simp [hl, Load.enterFlow, Load.inBody]

end

/-! ### The admission queue (R154, R155) -/

/-- A change of the queue alone. -/
theorem State.modQueue_grants {f : Header → Header} {s : State} (hp : (f s.header).parts = s.header.parts)
    (hc : (f s.header).effCap = s.header.effCap) (h : s.grantsOk) : (s.modHeader f).grantsOk := by
  simpa only [State.grantsOk, State.modHeader_header, hp, hc] using h

theorem State.modHeader_valves {f : Header → Header} {s : State} {a : ArmId} (h : s.armValvesOk a) :
    (s.modHeader f).armValvesOk a :=
  State.armValvesOk_congr (s := s) rfl rfl rfl h

theorem State.admitHead_admits {a : ArmId} {rest : List ArmId} {s : State} (hq : s.header.queue = a :: rest) :
    Admits s (s.admitHead a) := by
  let f : Header → Header := fun h =>
    { h with queue := h.queue.drop 1, parts := h.parts ++ [{ arm := a, demand := 0, grant := 0 }] }
  have hk : Kept s ((s.modHeader f).recomputeGrants none) :=
    (State.modHeader_kept rfl ⟨rfl, rfl⟩).trans (State.recomputeGrants_kept _ _)
  refine ⟨⟨s.admitHead_kept a, fun q h => ?_, fun q b h => ?_, fun _ => ?_⟩, fun b h => ?_⟩
  · have hadm := h.1 a (by simp [hq])
    have hbut := h.membersOkBut a
    have hnotin : ∀ p ∈ s.header.parts, p.arm ≠ a := hbut.once (by simp [hq])
    have hnodup := hbut.queueNodup
    rw [hq, List.nodup_cons] at hnodup
    have hf : (s.modHeader f).membersOkBut a := by
      refine ⟨fun b hb hne => ?_, fun p hp hne => ?_, ?_, ?_, fun ha => ?_⟩
      · refine hbut.queue b ?_ hne
        simp only [State.modHeader_header, f, hq, List.drop_one, List.tail_cons] at hb
        simp [hq, hb]
      · simp only [State.modHeader_header, f, List.mem_append, List.mem_singleton] at hp
        rcases hp with hp | rfl
        · exact hbut.parts p hp hne
        · exact absurd rfl hne
      · simpa [f, hq] using hnodup.2
      · simpa [f, List.nodup_append, hbut.partsNodup] using hnotin
      · simp only [State.modHeader_header, f, hq, List.drop_one, List.tail_cons] at ha
        exact absurd ha hnodup.1
    have hr : ((s.modHeader f).recomputeGrants none).membersOkBut a :=
      State.membersOkBut_congr (by simp) (State.recomputeGrants_members _ _)
        (fun b _ => State.head_congr (by simp) b) hf
    refine State.enterFlowing_headerOk (hk.queues q) hr ?_ fun p _ _ => ⟨rfl, ?_⟩
    · simpa [f, hq] using hnodup.1
    · rw [State.head_congr (t := (s.modHeader f).recomputeGrants none) (s := s) (by simp)]
      cases hl : s.head a with
      | none => simp [State.headIs, hl] at hadm
      | some l => rfl
  · exact State.enterFlowing_valves (hk.queues q) b
      (State.recomputeGrants_valves _ _ b (State.modHeader_valves h))
  · exact State.enterFlowing_grants (State.recomputeGrants_grantsOk _ _)
  · refine State.enterFlowing_delivers b ?_
    rwa [State.headIs_congr (State.head_congr (t := (s.modHeader f).recomputeGrants none) (s := s) (by simp) b)]

theorem State.evaluateQueue_admits (s : State) : Admits s s.evaluateQueue := by
  unfold State.evaluateQueue
  generalize s.header.queue.length = n
  induction n generalizing s with
  | zero => exact .refl s
  | succ n ih =>
    unfold State.evaluateQueueFor
    split
    · exact .refl s
    · rename_i a rest hq
      split
      · exact (State.admitHead_admits hq).trans (ih _)
      · exact .refl s

theorem State.modHeader_queuesOk {f : Header → Header} {s : State} (q : s.queuesOk) :
    (s.modHeader f).queuesOk := q

/-- The queue with one arm more at its tail. -/
def Header.enqueue (a : ArmId) (h : Header) : Header := { h with queue := h.queue ++ [a] }

/-- The queue without an arm. -/
def Header.dequeue (a : ArmId) (h : Header) : Header := { h with queue := h.queue.filter (· != a) }

theorem State.joinQueue_admits (a : ArmId) (s : State) :
    Admits (s.modHeader (Header.enqueue a)) (s.joinQueue a) := by
  have hatt : ∀ t : State, Admits t (t.attend .admissionWait) := fun t => .of_loads (t.attend_sound _) rfl
  unfold State.joinQueue
  dsimp only
  split <;> split
  · exact (State.evaluateQueue_admits _).trans (hatt _)
  · exact State.evaluateQueue_admits _
  · exact hatt _
  · exact .refl _

/-- An arm whose head load has entered ADMITTING joins the queue. -/
theorem State.joinQueue_headerOk {a : ArmId} {s : State} (q : s.queuesOk) (h : s.membersOkBut a)
    (hq : a ∉ s.header.queue) (hp : ∀ p ∈ s.header.parts, p.arm ≠ a)
    (ha : s.headIs a (· == .admitting) = true) : (s.joinQueue a).headerOk := by
  refine (State.joinQueue_admits a s).header (State.modHeader_queuesOk q) ⟨fun b hb => ?_,
    fun p hpm => h.parts p hpm (hp p hpm), ?_, h.partsNodup⟩
  · simp only [State.modHeader_header, Header.enqueue, List.mem_append, List.mem_singleton] at hb
    rcases hb with hb | rfl
    · exact h.queue b hb fun e => hq (e ▸ hb)
    · exact ha
  · have : ∀ b ∈ s.header.queue, b ≠ a := fun b hb e => hq (e ▸ hb)
    simpa [Header.enqueue, List.nodup_append, h.queueNodup] using this

theorem State.leaveQueue_of_waits {a : ArmId} {s : State} (h : a ∈ s.header.queue) :
    Admits (s.modHeader (Header.dequeue a)) (s.leaveQueue a) := by
  unfold State.leaveQueue
  rw [if_pos (by simpa using h)]
  dsimp only
  split
  · exact State.evaluateQueue_admits _
  · exact .refl _

theorem State.leaveQueue_of_not {a : ArmId} {s : State} (h : a ∉ s.header.queue) : s.leaveQueue a = s := by
  unfold State.leaveQueue
  rw [if_neg (by simpa using h)]

/-- An arm leaves the queue. -/
theorem State.leaveQueue_headerOk {a : ArmId} {s : State} (q : s.queuesOk) (h : s.membersOkBut a)
    (hp : ∀ p ∈ s.header.parts, p.arm = a → (s.head a).any Load.inBody = true) : (s.leaveQueue a).headerOk := by
  by_cases ha : a ∈ s.header.queue
  · refine (State.leaveQueue_of_waits ha).header (State.modHeader_queuesOk q) (State.membersOkBut.headerOk (a := a)
      ⟨fun b hb hne => h.queue b (List.mem_of_mem_filter hb) hne, h.parts, h.queueNodup.filter _,
        h.partsNodup, fun ha => ?_⟩ (fun ha => ?_) hp)
    · simp [Header.dequeue] at ha
    · simp [Header.dequeue] at ha
  · rw [State.leaveQueue_of_not ha]
    exact h.headerOk (fun e => absurd e ha) hp

theorem State.leaveQueue_admits (a : ArmId) (s : State) : Admits s (s.leaveQueue a) := by
  by_cases ha : a ∈ s.header.queue
  · have h := State.leaveQueue_of_waits ha
    refine ⟨⟨s.leaveQueue_kept a, fun q hk => ?_, fun q b hv => ?_, fun hg => ?_⟩, fun b hd => ?_⟩
    · exact State.leaveQueue_headerOk q (hk.membersOkBut a) fun p hp e => e ▸ hk.2.1 p hp
    · exact h.valves (State.modHeader_queuesOk q) b (State.modHeader_valves hv)
    · exact h.grants (State.modQueue_grants rfl rfl hg)
    · exact h.delivers b hd
  · rw [State.leaveQueue_of_not ha]
    exact .refl s

/-! ### The participants (R150) -/

/-- The participants without an arm. -/
def Header.without (a : ArmId) (h : Header) : Header := { h with parts := h.parts.filter fun p => p.arm != a }

theorem State.participates_false {a : ArmId} {s : State} :
    s.participates a = false ↔ ∀ p ∈ s.header.parts, p.arm ≠ a := by
  simp [State.participates]

theorem State.waits_false {a : ArmId} {s : State} : s.waits a = false ↔ a ∉ s.header.queue := by
  simp [State.waits]

/-- The members without an arm that is a participant are as R150 and R154 say. -/
theorem State.membersOkBut.without {a : ArmId} {s : State} (h : s.membersOkBut a) (hp : s.participates a = true) :
    (s.modHeader (Header.without a)).headerOk := by
  have hnq : a ∉ s.header.queue := fun ha => by
    rw [State.participates_false.mpr (h.once ha)] at hp
    cases hp
  have hsub : ∀ p ∈ (s.modHeader (Header.without a)).header.parts, p ∈ s.header.parts ∧ p.arm ≠ a := fun p hpm => by
    simpa [Header.without] using hpm
  exact State.membersOkBut.headerOk (a := a)
    ⟨fun b hb hne => h.queue b hb hne, fun p hpm hne => h.parts p (hsub p hpm).1 hne, h.queueNodup,
      h.partsNodup.sublist (List.filter_sublist.map _), fun ha => absurd ha hnq⟩
    (fun ha => absurd ha hnq) fun p hpm e => absurd e (hsub p hpm).2

theorem State.leaveParticipants_of_part {a : ArmId} {s : State} (h : s.participates a = true) :
    Admits (State.recomputeGrants none (s.modHeader (Header.without a))) (s.leaveParticipants a) := by
  unfold State.participates at h
  unfold State.leaveParticipants
  rw [if_pos h]
  exact State.evaluateQueue_admits _

theorem State.leaveParticipants_of_not {a : ArmId} {s : State} (h : s.participates a = false) :
    s.leaveParticipants a = s := by
  unfold State.participates at h
  unfold State.leaveParticipants
  rw [if_neg (by simp [h])]

/-- The other members stay as R150 and R154 say where an arm leaves the participants. -/
theorem State.leaveParticipants_headerOk {a : ArmId} {s : State} (q : s.queuesOk) (h : s.membersOkBut a)
    (hp : s.participates a = true) : (s.leaveParticipants a).headerOk := by
  have hr := State.recomputeGrants_sound none (s.modHeader (Header.without a))
  have q1 := State.modHeader_queuesOk (f := Header.without a) q
  exact (State.leaveParticipants_of_part hp).header (hr.queues q1) (hr.header q1 (h.without hp))

theorem State.leaveParticipants_admits (a : ArmId) (s : State) : Admits s (s.leaveParticipants a) := by
  cases hp : s.participates a with
  | true =>
    have h := State.leaveParticipants_of_part hp
    have hr := State.recomputeGrants_admits none (s.modHeader (Header.without a))
    refine ⟨⟨s.leaveParticipants_kept a, fun q hk => ?_, fun q b hv => ?_, fun _ => ?_⟩, fun b hd => ?_⟩
    · exact State.leaveParticipants_headerOk q (hk.membersOkBut a) hp
    · exact h.valves (hr.queues (State.modHeader_queuesOk q)) b
        (State.recomputeGrants_valves _ _ b (State.modHeader_valves hv))
    · exact h.grants (State.recomputeGrants_grantsOk _ _)
    · exact h.delivers b (hr.delivers b hd)
  | false => rw [State.leaveParticipants_of_not hp]; exact .refl s

/-- An arm leaves the header, whatever its head load does: the other members stay as R150 and R154 say. -/
theorem State.leaveHeader_headerOk {a : ArmId} {s : State} (q : s.queuesOk) (h : s.membersOkBut a) :
    (s.leaveHeader a).headerOk := by
  unfold State.leaveHeader
  cases hp : s.participates a with
  | true =>
    exact (State.leaveQueue_admits a _).header ((s.leaveParticipants_kept a).queues q)
      (State.leaveParticipants_headerOk q h hp)
  | false =>
    rw [State.leaveParticipants_of_not hp]
    exact State.leaveQueue_headerOk q h fun p hpm e => absurd e (State.participates_false.mp hp p hpm)

theorem State.leaveHeader_admits (a : ArmId) (s : State) : Admits s (s.leaveHeader a) :=
  (s.leaveParticipants_admits a).trans (State.leaveQueue_admits a _)

end Sys2Proof.Machine
end

section
/-! PROOFS. Taking a stop cause, the closes, the end of a load and the timers keep the header's members, the valve
commands and the grants (R133, R150, R152, R154). -/

namespace Sys2Proof.Machine

/-! ### A load that stops (R8 to R11) -/

/-- An arm whose flow is cut: both valve commands are 0. -/
structure ArmCut (x y : Arm) : Prop extends ArmKept x y where
  shut : y.valveBase = 0 ∧ y.valveEth = 0

theorem Arm.zeroFlow_cut (x : Arm) : ArmCut x x.zeroFlow := ⟨x.zeroFlow_kept, rfl, rfl⟩

theorem Arm.startSettle_cut (x : Arm) : ArmCut x x.startSettle := ⟨x.startSettle_kept, rfl, rfl⟩

/-- The head load of an arm moves on with its flow cut, and the arm leaves the header (R8, R9). -/
theorem State.withdraw_sound {a : ArmId} {f : Load → Load} {g : Arm → Arm} {s : State}
    (hf : ∀ l, l.state ≠ .ended → LoadKept l (f l)) (hg : ∀ x, ArmCut x (g x)) :
    Sound s (State.leaveHeader a (State.modArm a g (s.modHead a f))) ∧
      (s.queuesOk → (State.leaveHeader a (State.modArm a g (s.modHead a f))).armValvesOk a) := by
  have hk : Kept s (State.modArm a g (s.modHead a f)) :=
    (State.modHead_kept hf).trans (State.modArm_kept fun x => (hg x).toArmKept)
  have hleave := State.leaveHeader_admits a (State.modArm a g (s.modHead a f))
  have hshut : (State.modArm a g (s.modHead a f)).armValvesOk a := by
    refine State.armValvesOk_of_shut ?_ ?_ <;> rw [State.modArm_arm_same]
    · exact (hg _).shut.1
    · exact (hg _).shut.2
  refine ⟨⟨hk.trans hleave.toKept, fun q h => ?_, fun q b h => ?_, fun h => hleave.grants h⟩, fun q => ?_⟩
  · exact State.leaveHeader_headerOk (hk.queues q)
      (State.membersOkBut_congr (s := s.modHead a f) rfl rfl (fun _ _ => rfl)
        ((h.membersOkBut a).modHead fun l hl => (hf l hl).arm))
  · refine hleave.valves (hk.queues q) b ?_
    by_cases hb : b = a
    · subst hb; exact hshut
    · exact State.armValvesOk_congr (s := s.modHead a f) rfl (by rw [State.modArm_arm_ne hb])
        (by rw [State.modArm_arm_ne hb]) (State.modHead_armValvesOk_ne (fun l hl => (hf l hl).arm) hb h)
  · exact hleave.valves (hk.queues q) a hshut

theorem State.cutStrokes_sound (a : ArmId) (s : State) : Sound s (s.cutStrokes a) :=
  (State.forAll_sound fun _ _ _ => State.modInjector_sound (Injector.cut_kept _)).trans
    (State.modArm_sound (fun x => { ArmKept.refl x with }) fun _ => ⟨rfl, rfl⟩)

theorem State.awaitFinal_sound (a : ArmId) (s : State) : Sound s (s.awaitFinal a) :=
  (State.forAll_sound fun _ _ _ => State.modInjector_sound { InjectorKept.refl _ with stroke := id }).trans
    (State.modArm_sound (fun x => { ArmKept.refl x with }) fun _ => ⟨rfl, rfl⟩)

/-- The record that enters SETTLING (R8). -/
def Load.enterSettle (how : Option PendingOutcome) (l : Load) : Load :=
  { l with
    state := .settling
    admitFrom := none
    share := 0
    pendingOut := if how.isSome then how else l.pendingOut
    flushInc := l.flushInc || (how.isSome && l.losesFlush) }

theorem Load.enterSettle_kept (how : Option PendingOutcome) {l : Load} (hl : l.state ≠ .ended) :
    LoadKept l (l.enterSettle how) :=
  .of_plain hl (by simp [Load.enterSettle]) ⟨rfl, rfl, rfl, rfl, rfl, rfl, rfl, rfl⟩
    ⟨rfl, rfl, rfl, rfl, rfl, rfl⟩ ⟨rfl, rfl, rfl, rfl⟩ ⟨rfl, rfl, rfl⟩

/-- The state in which the head load has entered SETTLING and its arm has left the header (R8). -/
def State.settleEntered (a : ArmId) (how : Option PendingOutcome) (s : State) : State :=
  State.leaveHeader a (State.modArm a Arm.startSettle (s.modHead a (Load.enterSettle how)))

theorem State.enterSettling_eq (a : ArmId) (how : Option PendingOutcome) (s : State) :
    s.enterSettling a how =
      if how = some .tripped then (s.settleEntered a how).cutStrokes a else (s.settleEntered a how).awaitFinal a := by
  unfold State.enterSettling State.settleEntered
  simp only [beq_iff_eq]
  rfl

/-- The entry to SETTLING is sound and leaves both valve commands of the arm as R133 says, whatever they were. -/
theorem State.enterSettling_settles (a : ArmId) (how : Option PendingOutcome) (s : State) :
    Sound s (s.enterSettling a how) ∧ (s.queuesOk → (s.enterSettling a how).armValvesOk a) := by
  obtain ⟨hs, hv⟩ := State.withdraw_sound (a := a) (s := s) (fun _ => Load.enterSettle_kept how) Arm.startSettle_cut
  rw [State.enterSettling_eq]
  split
  · have := (s.settleEntered a how).cutStrokes_sound a
    exact ⟨hs.trans this, fun q => this.valves (hs.queues q) a (hv q)⟩
  · have := (s.settleEntered a how).awaitFinal_sound a
    exact ⟨hs.trans this, fun q => this.valves (hs.queues q) a (hv q)⟩

theorem State.enterSettling_sound (a : ArmId) (how : Option PendingOutcome) (s : State) :
    Sound s (s.enterSettling a how) := (s.enterSettling_settles a how).1

theorem State.enterHeld_sound (a : ArmId) (code : StopCode) (s : State) : Sound s (s.enterHeld a code) := by
  refine Sound.trans (State.withdraw_sound (fun l hl => (Load.joinHold_kept code hl).trans ?_)
    Arm.zeroFlow_cut).1 (State.attend_sound _ _)
  exact .of_plain (by rwa [Load.joinHold_state]) (by simp) ⟨rfl, rfl, rfl, rfl, rfl, rfl, rfl, rfl⟩
    ⟨rfl, rfl, rfl, rfl, rfl, rfl⟩ ⟨rfl, rfl, rfl, rfl⟩ ⟨rfl, rfl, rfl⟩

theorem State.backToAuthorized_sound (a : ArmId) (s : State) : Sound s (s.backToAuthorized a) := by
  refine (State.withdraw_sound (fun l hl => ?_) Arm.zeroFlow_cut).1
  exact .of_plain hl (by simp) ⟨rfl, rfl, rfl, rfl, rfl, rfl, rfl, rfl⟩ ⟨rfl, rfl, rfl, rfl, rfl, rfl⟩
    ⟨rfl, rfl, rfl, rfl⟩ ⟨rfl, rfl, rfl⟩

/-- An operation that may leave the valve commands of one arm behind: those of an arm that delivers. -/
structure SoundBut (a : ArmId) (s t : State) : Prop extends Kept s t where
  header : s.queuesOk → s.headerOk → t.headerOk
  others : s.queuesOk → ∀ b, b ≠ a → s.armValvesOk b → t.armValvesOk b
  own    : s.queuesOk → s.armValvesOk a → t.headIs a LoadState.delivers = false → t.armValvesOk a
  grants : s.grantsOk → t.grantsOk

theorem Sound.but {s t : State} (h : Sound s t) (a : ArmId) : SoundBut a s t :=
  ⟨h.toKept, h.header, fun q b _ => h.valves q b, fun q hv _ => h.valves q a hv, h.grants⟩

theorem SoundBut.trans_admits {a : ArmId} {s t u : State} (h : SoundBut a s t) (g : Admits t u) : SoundBut a s u where
  toKept := h.toKept.trans g.toKept
  header := fun q e => g.header (h.queues q) (h.header q e)
  others := fun q b hb e => g.valves (h.queues q) b (h.others q b hb e)
  own := fun q e hd => by
    refine g.valves (h.queues q) a (h.own q e ?_)
    by_contra hn
    simp [g.delivers a (by simpa using hn)] at hd
  grants := g.grants ∘ h.grants

/-- Such an operation followed by one that settles the arm's valve commands. -/
theorem SoundBut.settled {a : ArmId} {s t u : State} (h : SoundBut a s t) (g : Sound t u)
    (hv : t.queuesOk → (t.headIs a LoadState.delivers = false → t.armValvesOk a) → u.armValvesOk a) : Sound s u where
  toKept := h.toKept.trans g.toKept
  header := fun q e => g.header (h.queues q) (h.header q e)
  valves := fun q b e => by
    by_cases hb : b = a
    · subst hb; exact hv (h.queues q) fun hd => h.own q e hd
    · exact g.valves (h.queues q) b (h.others q b hb e)
  grants := g.grants ∘ h.grants

/-- A head load that delivers goes on delivering and its arm leaves the header: the arm's valve commands are still
those of before. `t` is the state in between, which differs from the one with the load alone in no load or member. -/
theorem State.modHead_leaveHeader_but {a : ArmId} {f : Load → Load} {s t : State}
    (hf : ∀ l, l.state ≠ .ended → LoadKept l (f l)) (hne : ∀ l, l.state ≠ .ended → (f l).state ≠ .ended)
    (hd : ∀ l, s.head a = some l → (f l).state.delivers = true)
    (ht : Sound (s.modHead a f) t) (hl : t.loads = (s.modHead a f).loads) (hh : t.header = s.header) :
    SoundBut a s (t.leaveHeader a) := by
  have hm : Kept s (s.modHead a f) := State.modHead_kept hf
  have hk : Kept s t := hm.trans ht.toKept
  have hleave := State.leaveHeader_admits a t
  refine ⟨hk.trans hleave.toKept, fun q h => ?_, fun q b hb h => ?_, fun q h hn => ?_,
    fun h => hleave.grants (ht.grants h)⟩
  · exact State.leaveHeader_headerOk (hk.queues q)
      (State.membersOkBut_congr (s := s.modHead a f) (by rw [hh]; rfl) (by rw [hh]; rfl)
        (fun b _ => State.head_congr hl b) ((h.membersOkBut a).modHead fun l hl => (hf l hl).arm))
  · exact hleave.valves (hk.queues q) b (ht.valves (hm.queues q) b
      (State.modHead_armValvesOk_ne (fun l hl => (hf l hl).arm) hb h))
  · cases hl' : s.head a with
    | none =>
      refine hleave.valves (hk.queues q) a (ht.valves (hm.queues q) a ?_)
      rwa [State.modHead_of_none f hl']
    | some l =>
      have : t.headIs a LoadState.delivers = true := by
        rw [State.headIs_congr (State.head_congr hl a)]
        simp [State.headIs, State.modHead_head (fun l hl => ⟨(hf l hl).arm, hne l hl⟩), hl', hd l hl']
      rw [hleave.delivers a this] at hn
      cases hn

/-- The record that enters ENDING (R10). -/
def Load.enterEnd (l : Load) : Load := { l with state := .ending, share := 0 }

theorem Load.enterEnd_kept {l : Load} (hl : l.state ≠ .ended) : LoadKept l l.enterEnd :=
  .of_plain hl (by simp [Load.enterEnd]) ⟨rfl, rfl, rfl, rfl, rfl, rfl, rfl, rfl⟩
    ⟨rfl, rfl, rfl, rfl, rfl, rfl⟩ ⟨rfl, rfl, rfl, rfl⟩ ⟨rfl, rfl, rfl⟩

theorem State.enterEnding_sound (a : ArmId) (l : Load) (s : State) : Sound s (s.enterEnding a l) := by
  have h1 := fun g => State.modHead_leaveHeader_but (a := a) (s := s) (fun _ => Load.enterEnd_kept)
    (fun l _ => by simp [Load.enterEnd]) (fun _ _ => rfl)
    (State.modFlow_sound a g (s.modHead a Load.enterEnd)) rfl rfl
  unfold State.enterEnding
  dsimp only
  split
  · exact (h1 _).settled (State.enterSettling_sound _ _ _) fun q _ => (State.enterSettling_settles _ _ _).2 q
  · refine (h1 _).settled ((State.formSplit_sound _ _).trans (State.testAllFiring_admits _ _).toSound) fun q hv => ?_
    exact (State.testAllFiring_admits _ _).valves ((State.formSplit_kept _ _).queues q) a (State.formSplit_settles hv)

/-! ### Taking a cause -/

theorem Load.joinHold_stage (code : StopCode) (l : Load) :
    (l.joinHold code).state = l.state ∧ (l.joinHold code).phase = l.phase := by
  cases code <;> exact ⟨rfl, rfl⟩

theorem Load.fillStop_stage (code : StopCode) (cls : Cls) (det : Detail) (l : Load) :
    (l.fillStop code cls det).state = l.state ∧ (l.fillStop code cls det).phase = l.phase := by
  unfold Load.fillStop
  split
  · exact ⟨rfl, rfl⟩
  · split <;> exact ⟨rfl, rfl⟩

theorem Load.keepDetail_stage (code : StopCode) (det : Detail) (l : Load) :
    (l.keepDetail code det).state = l.state ∧ (l.keepDetail code det).phase = l.phase := by
  rw [Load.keepDetail_eq]
  exact ⟨rfl, rfl⟩

theorem State.actHold_sound (a : ArmId) (code : StopCode) (l : Load) (s : State) :
    Sound s (s.actHold a code l) := by
  unfold State.actHold
  split
  · split
    · exact State.backToAuthorized_sound _ _
    · exact State.enterHeld_sound _ _ _
  · exact State.enterHeld_sound _ _ _
  · exact State.modHead_sound (fun l hl => Load.joinHold_kept code hl) (Load.joinHold_stage code)
  · exact State.enterSettling_sound _ _ _
  all_goals exact .refl s

theorem State.actEnd_sound (a : ArmId) (l : Load) (s : State) : Sound s (s.actEnd a l) := by
  unfold State.actEnd
  split
  · exact State.enterSettling_sound _ _ _
  · exact State.enterSettling_sound _ _ _
  · exact State.enterEnding_sound _ _ _
  all_goals exact .refl s

theorem State.actTrip_sound (a : ArmId) (s : State) : Sound s (s.actTrip a) := by
  unfold State.actTrip
  split
  · exact .refl s
  · split
    · refine Sound.trans ?_ (State.cutStrokes_sound _ _)
      exact State.modHead_sound (fun l hl =>
        .of_plain hl hl ⟨rfl, rfl, rfl, rfl, rfl, rfl, rfl, rfl⟩ ⟨rfl, rfl, rfl, rfl, rfl, rfl⟩
          ⟨rfl, rfl, rfl, rfl⟩ ⟨rfl, rfl, rfl⟩) fun _ => ⟨rfl, rfl⟩
    · exact State.enterSettling_sound _ _ _

theorem State.takeNotice_sound (a : ArmId) (code : StopCode) (s : State) : Sound s (s.takeNotice a code) := by
  unfold State.takeNotice
  refine Sound.trans (State.modHead_sound (fun l hl => ?_) fun l => ?_) (State.attend_sound _ _)
  · cases code with
    | endRequest => exact .refl l
    | cause c =>
      exact .of_plain hl hl ⟨rfl, rfl, rfl, rfl, rfl, rfl, rfl, rfl⟩ ⟨rfl, rfl, rfl, rfl, rfl, rfl⟩
        ⟨rfl, rfl, rfl, rfl⟩ ⟨rfl, rfl, rfl⟩
  · cases code <;> exact ⟨rfl, rfl⟩

theorem State.lockArm_sound (a : ArmId) (c : Cause) (det : Detail) (s : State) : Sound s (s.lockArm a c det) := by
  refine .of_same (State.lockArm_kept a c det s) rfl (fun _ => rfl) fun b => ?_
  simp only [State.lockArm, State.attend_arm, State.modArm_arm]
  split
  · split <;> exact ⟨rfl, rfl⟩
  · exact ⟨rfl, rfl⟩

theorem State.zeroStray_sound (a : ArmId) (s : State) : Sound s (s.zeroStray a) :=
  State.modArm_sound (fun x => { ArmKept.refl x with }) fun _ => ⟨rfl, rfl⟩

theorem State.laneTrip_sound (c : Cause) (det : Detail) (a : ArmId) (s : State) :
    Sound s (s.laneTrip c det a) := by
  unfold State.laneTrip
  refine Sound.trans (Sound.trans ?_ (State.actTrip_sound _ _)) (State.lockArm_sound _ _ _ _)
  split
  · exact State.modHead_sound (fun l hl => Load.fillStop_kept _ _ _ hl) fun l => Load.fillStop_stage _ _ _ l
  · exact .refl s

theorem State.shutLane_sound (n : LaneId) (c : Cause) (s : State) : Sound s (s.shutLane n c) := by
  unfold State.shutLane
  split
  · exact .refl s
  · rename_i h
    refine Sound.trans (Sound.trans (State.modLane_sound ?_)
      (State.forAll_sound fun _ _ t => State.zeroStray_sound _ t)) (State.attend_sound _ _)
    exact ⟨rfl, fun e => absurd e h, fun _ => rfl⟩

theorem State.escalateLane_sound (a : ArmId) (c : Cause) (det : Detail) (s : State) :
    Sound s (s.escalateLane a c det) := by
  unfold State.escalateLane
  split
  · exact .refl s
  · split
    · exact .refl s
    · exact (State.shutLane_sound _ _ _).trans
        (State.forAllFree_sound fun _ _ t => State.laneTrip_sound _ _ _ t)

theorem State.tripArm_sound (a : ArmId) (c : Cause) (det : Detail) (s : State) : Sound s (s.tripArm a c det) := by
  unfold State.tripArm
  dsimp only
  split
  · exact (State.laneTrip_sound _ _ _ _).trans (State.escalateLane_sound _ _ _ _)
  · exact State.laneTrip_sound _ _ _ _

theorem State.emergencyTrip_sound (n : LaneId) (s : State) : Sound s (s.emergencyTrip n) :=
  (State.shutLane_sound _ _ _).trans (State.forAllFree_sound fun _ _ t => State.laneTrip_sound _ _ _ t)

theorem State.readEmergencies_sound (s : State) : Sound s s.readEmergencies :=
  State.forAll_sound fun n _ t => by
    unfold State.readEmergency
    split
    · exact t.emergencyTrip_sound n
    · exact .refl t

theorem State.takeOnLoad_sound (a : ArmId) (code : StopCode) (cls : Cls) (det : Detail) (l : Load)
    (s : State) : Sound s (s.takeOnLoad a code cls det l) := by
  have h1 : Sound s (s.modHead a (Load.keepDetail code det)) :=
    State.modHead_sound (fun l hl => Load.keepDetail_kept _ _ hl) fun l => Load.keepDetail_stage _ _ l
  have h2 := h1.trans (State.modHead_sound (a := a) (fun l hl => Load.fillStop_kept code cls det hl)
    fun l => Load.fillStop_stage _ _ _ l)
  unfold State.takeOnLoad
  dsimp only
  split
  · exact h1.trans (State.takeNotice_sound _ _ _)
  · split
    · exact h2.trans (State.actHold_sound _ _ _ _)
    · exact h2.trans (State.actEnd_sound _ _ _)
    · exact h2
    · exact h2

/-- A record one of whose holds is escalated (R187). -/
def Load.escalate (l : Load) : Load := { l with escalated := true }

theorem Load.escalate_kept {l : Load} (hl : l.state ≠ .ended) : LoadKept l l.escalate :=
  .of_plain hl hl ⟨rfl, rfl, rfl, rfl, rfl, rfl, rfl, rfl⟩ ⟨rfl, rfl, rfl, rfl, rfl, rfl⟩
    ⟨rfl, rfl, rfl, rfl⟩ ⟨rfl, rfl, rfl⟩

theorem State.takeCause_sound (a : ArmId) (code : StopCode) (det : Detail) (s : State) :
    Sound s (s.takeCause a code det) := by
  unfold State.takeCause
  dsimp only
  split
  · exact State.tripArm_sound _ _ _ _
  · split
    · exact .refl s
    · split
      · exact (State.modHead_sound (f := Load.escalate) (fun _ => Load.escalate_kept) fun _ => ⟨rfl, rfl⟩).trans
          (State.takeOnLoad_sound _ _ _ _ _ _)
      · exact State.takeOnLoad_sound _ _ _ _ _ _

/-! ### Starting and resuming (R5, R191) -/

/-- A record that enters ADMITTING (R2). -/
def Load.enterAdmitting (how : AdmitFrom) (l : Load) : Load := { l with state := .admitting, admitFrom := some how }

theorem Load.enterAdmitting_kept (how : AdmitFrom) {l : Load} (hl : l.state ≠ .ended) :
    LoadKept l (l.enterAdmitting how) :=
  .of_plain hl (by simp [Load.enterAdmitting]) ⟨rfl, rfl, rfl, rfl, rfl, rfl, rfl, rfl⟩
    ⟨rfl, rfl, rfl, rfl, rfl, rfl⟩ ⟨rfl, rfl, rfl, rfl⟩ ⟨rfl, rfl, rfl⟩

/-- The head load of an arm outside the header enters ADMITTING and joins the queue (R154). -/
theorem State.admitting_joinQueue_sound {a : ArmId} {l : Load} (how : AdmitFrom) {s : State} (hl : s.head a = some l)
    (hs : l.state ≠ .admitting) (hd : l.state.delivers = false) :
    Sound s (State.joinQueue a (s.modHead a (Load.enterAdmitting how))) := by
  have hk : Kept s (s.modHead a (Load.enterAdmitting how)) :=
    State.modHead_kept fun _ => Load.enterAdmitting_kept how
  have hhead : (s.modHead a (Load.enterAdmitting how)).head a = some (l.enterAdmitting how) := by
    rw [State.modHead_head (f := Load.enterAdmitting how) (fun l hl => ⟨rfl, by simp [Load.enterAdmitting]⟩),
      if_pos rfl, hl, Option.map_some]
  have hj := State.joinQueue_admits a (s.modHead a (Load.enterAdmitting how))
  refine ⟨hk.trans (State.joinQueue_kept _ _), fun q h => ?_, fun q b h => ?_, fun h => ?_⟩
  · obtain ⟨hq, hp⟩ := h.not_member hl hs (by
      cases he : l.state <;> simp_all [Load.inBody, LoadState.delivers])
    refine State.joinQueue_headerOk (hk.queues q) ((h.membersOkBut a).modHead fun _ _ => rfl) hq hp ?_
    rw [State.headIs_of_head hhead]
    rfl
  · refine hj.valves (State.modHeader_queuesOk (hk.queues q)) b (State.modHeader_valves ?_)
    by_cases hb : b = a
    · subst hb
      have := h.shut (by rw [State.headIs_of_head hl, hd])
      exact State.armValvesOk_of_shut this.1 this.2
    · exact State.modHead_armValvesOk_ne (fun _ _ => rfl) hb h
  · exact hj.grants (State.modQueue_grants rfl rfl h)

/-- The head load of an arm outside the header enters FLOWING. -/
theorem State.enterFlowing_sound {a : ArmId} {l : Load} (phase : Phase) {s : State} (hl : s.head a = some l)
    (hs : l.state ≠ .admitting) (hb : l.inBody = false) : Sound s (s.enterFlowing a phase) where
  toKept := s.enterFlowing_kept a phase
  header := fun q h => by
    obtain ⟨hq, hp⟩ := h.not_member hl hs hb
    exact State.enterFlowing_headerOk q (h.membersOkBut a) hq fun p hpm e => absurd e (hp p hpm)
  valves := fun q b h => State.enterFlowing_valves q b h
  grants := State.enterFlowing_grants

/-- The record of a resume that is taken (R191, steps 1 to 4). -/
def Load.resume (rstVol : Nat) (l : Load) : Load :=
  { l with
    holds := []
    holdDetails := []
    resumes := min 15 (l.resumes + 1)
    rstLeft := rstVol
    adds := l.adds.map fun e => { e with consec := 0 } }

theorem Load.resume_kept (n : Nat) {l : Load} (hl : l.state ≠ .ended) : LoadKept l (l.resume n) :=
  .of_not_ended hl hl ⟨rfl, rfl, rfl, rfl, rfl, rfl, rfl, rfl⟩ ⟨rfl, rfl, rfl, rfl, rfl, rfl⟩
    ⟨rfl, rfl, rfl, rfl⟩ (mem_map_entries fun _ => rfl) id

/-- The state in which a resume has been taken and its load is still to move (R191, steps 1 to 4). -/
def State.resumed (a : ArmId) (l : Load) (s : State) : State :=
  State.modFlow a (fun f => { f with resumeVol := l.v }) (s.modHead a (Load.resume (s.defn a).rstVol))

theorem State.takeResume_eq (a : ArmId) (l : Load) (s : State) :
    s.takeResume a l =
      if l.phase == .body && decide (0 < (s.recipeOf l).r) then
        State.joinQueue a ((s.resumed a l).modHead a (Load.enterAdmitting .resume))
      else (s.resumed a l).enterFlowing a l.phase := rfl

theorem State.resumed_sound (a : ArmId) (l : Load) (s : State) : Sound s (s.resumed a l) :=
  (State.modHead_sound (fun _ => Load.resume_kept _) fun _ => ⟨rfl, rfl⟩).trans (State.modFlow_sound _ _ _)

theorem State.resumed_head {a : ArmId} {l k : Load} {s : State} (hl : s.head a = some l) :
    (s.resumed a k).head a = some (l.resume (s.defn a).rstVol) := by
  rw [State.resumed, State.modFlow_head,
    State.modHead_head (f := Load.resume (s.defn a).rstVol) (fun _ hl => ⟨rfl, hl⟩), if_pos rfl, hl,
    Option.map_some]

theorem State.takeResume_sound {a : ArmId} {l : Load} {s : State} (hl : s.head a = some l) (hs : l.state = .held) :
    Sound s (s.takeResume a l) := by
  have hheld : (l.resume (s.defn a).rstVol).state = .held := hs
  rw [State.takeResume_eq]
  split
  · exact (s.resumed_sound a l).trans (State.admitting_joinQueue_sound .resume (State.resumed_head hl)
      (by rw [hheld]; decide) (by rw [hheld]; rfl))
  · exact (s.resumed_sound a l).trans (State.enterFlowing_sound _ (State.resumed_head hl)
      (by rw [hheld]; decide) (by rw [Load.inBody, hheld]; rfl))

/-- An arm at which a load begins (R5(a), R66, R123). -/
def Arm.beginLoad (x : Arm) : Arm :=
  { x.zeroStray with flow := FlowState.fresh, endStage := .none, endReported := false }

theorem Arm.beginLoad_kept (x : Arm) : ArmKept x x.beginLoad :=
  { ArmKept.refl x with }

theorem State.prepareStart_sound (a : ArmId) (l : Load) (s : State) : Sound s (s.prepareStart a l) := by
  have harm : Sound s (s.modArm a Arm.beginLoad) := State.modArm_sound Arm.beginLoad_kept fun _ => ⟨rfl, rfl⟩
  exact harm.trans (State.forAll_sound fun _ _ _ => State.modInjector_sound
    { InjectorKept.refl _ with stroke := id })

@[simp] theorem State.prepareStart_loads (a : ArmId) (l : Load) (s : State) :
    (s.prepareStart a l).loads = s.loads :=
  State.forAll_keeps (P := fun t => t.loads = s.loads) rfl fun _ _ _ ht => ht

theorem State.takeStart_sound {a : ArmId} {l : Load} {s : State} (hl : s.head a = some l)
    (hs : l.state = .authorized) : Sound s (s.takeStart a l) := by
  have h1 := s.prepareStart_sound a l
  have hhead : (s.prepareStart a l).head a = some l := by
    rw [State.head_congr (s.prepareStart_loads a l), hl]
  refine Sound.trans ?_ (State.forAllFree_sound fun _ _ t => State.takeCause_sound _ _ _ t)
  unfold State.moveStart
  split
  · exact h1.trans (State.admitting_joinQueue_sound .start hhead (by simp [hs]) (by simp [hs, LoadState.delivers]))
  · exact h1.trans (State.enterFlowing_sound _ hhead (by simp [hs]) (by simp [Load.inBody, hs]))

theorem State.pressStart_sound (a : ArmId) (s : State) : Sound s (s.pressStart a) := by
  unfold State.pressStart
  split
  · exact .refl s
  · rename_i l hl
    split
    · rename_i hs
      split
      · exact State.takeStart_sound hl hs
      · exact .refl s
    · rename_i hs
      split
      · exact State.takeResume_sound hl hs
      · exact .refl s
    all_goals exact .refl s

theorem State.pressStop_sound (a : ArmId) (s : State) : Sound s (s.pressStop a) := by
  unfold State.pressStop
  split
  · exact State.takeCause_sound _ _ _ _
  · exact .refl s

theorem State.tickRamp_sound (a : ArmId) (s : State) : Sound s (s.tickRamp a) := by
  unfold State.tickRamp
  split
  · exact .refl s
  · dsimp only
    split
    · split
      · exact .refl s
      · exact (State.modFlow_sound _ _ _).trans (State.formSplit_sound _ _)
    · exact .refl s

theorem State.expireNoFlow_sound (a : ArmId) (r : Role) (s : State) : Sound s (s.expireNoFlow a r) := by
  unfold State.expireNoFlow
  split
  · exact (State.modFlow_sound _ _ _).trans (State.takeCause_sound _ _ _ _)
  · exact .refl s

end Sys2Proof.Machine
end

section
/-! PROOFS. The closes, the end of a load, the pulses and the timers keep the header's members, the valve commands and
the grants (R79, R104, R116, R128, R133, R139, R150, R154). -/

namespace Sys2Proof.Machine

/-! ### Who is in the header -/

/-- An arm that neither waits nor participates. -/
def State.outside (s : State) (a : ArmId) : Prop := a ∉ s.header.queue ∧ a ∉ s.header.parts.map (·.arm)

/-- Two states with the same members of the header. -/
structure SameMembers (s t : State) : Prop where
  queue : t.header.queue = s.header.queue
  arms  : t.header.parts.map (·.arm) = s.header.parts.map (·.arm)

theorem SameMembers.refl (s : State) : SameMembers s s := ⟨rfl, rfl⟩

theorem SameMembers.trans {s t u : State} (h : SameMembers s t) (g : SameMembers t u) : SameMembers s u :=
  ⟨g.queue.trans h.queue, g.arms.trans h.arms⟩

theorem SameMembers.of_header {s t : State} (h : t.header = s.header) : SameMembers s t := by
  constructor <;> rw [h]

theorem SameMembers.outside {s t : State} (h : SameMembers s t) {a : ArmId} (ha : s.outside a) : t.outside a := by
  rw [State.outside, h.queue, h.arms]
  exact ha

theorem State.recomputeGrants_sameMembers (handing : Option ArmId) (s : State) :
    SameMembers s (s.recomputeGrants handing) :=
  ⟨by simp, s.recomputeGrants_members handing⟩

theorem State.applySplit_sameMembers (a : ArmId) (s : State) : SameMembers s (s.applySplit a) :=
  .of_header (by simp)

theorem State.formSplit_sameMembers (a : ArmId) (s : State) : SameMembers s (s.formSplit a) := by
  unfold State.formSplit
  split
  · split
    · exact State.applySplit_sameMembers _ _
    · split
      · exact State.applySplit_sameMembers _ _
      · refine SameMembers.trans (t := s.modHeader _) ⟨rfl, ?_⟩
          ((State.recomputeGrants_sameMembers _ _).trans (State.applySplit_sameMembers _ _))
        exact updFirst_map fun _ _ _ => rfl
  · exact .refl s

@[simp] theorem State.snapDemand_header (a : ArmId) (s : State) : (s.snapDemand a).header = s.header := by
  unfold State.snapDemand
  split
  · rfl
  · split <;> rfl

@[simp] theorem State.evalProfile_header (a : ArmId) (s : State) : (s.evalProfile a).header = s.header := by
  unfold State.evalProfile
  split
  · rfl
  · dsimp only
    split
    · simp
    · rfl

@[simp] theorem State.testFiring_header (a : ArmId) (ch : InjId) (s : State) :
    (s.testFiring a ch).header = s.header := by
  unfold State.testFiring
  split
  · rfl
  · split
    · rfl
    · split <;> rfl

@[simp] theorem State.testAllFiring_header (a : ArmId) (s : State) : (s.testAllFiring a).header = s.header :=
  State.forAll_keeps (P := fun t => t.header = s.header) rfl fun _ _ t ht => by simp [ht]

@[simp] theorem State.flowEntered_header (a : ArmId) (phase : Phase) (s : State) :
    (s.flowEntered a phase).header = s.header := by
  unfold State.flowEntered
  dsimp only
  split <;> simp

theorem State.enterFlowing_sameMembers (a : ArmId) (phase : Phase) (s : State) :
    SameMembers s (s.enterFlowing a phase) := by
  rw [State.enterFlowing_eq]
  exact (SameMembers.of_header (s.flowEntered_header a phase)).trans
    ((State.formSplit_sameMembers _ _).trans (.of_header (State.testAllFiring_header _ _)))

/-- An admission moves the head of the queue to the end of the participants. -/
theorem State.admitHead_members (a : ArmId) (s : State) :
    (s.admitHead a).header.queue = s.header.queue.drop 1 ∧
      (s.admitHead a).header.parts.map (·.arm) = s.header.parts.map (·.arm) ++ [a] := by
  have h := (State.recomputeGrants_sameMembers none (s.modHeader fun h =>
    { h with queue := h.queue.drop 1, parts := h.parts ++ [{ arm := a, demand := 0, grant := 0 }] })).trans
      (State.enterFlowing_sameMembers a .body _)
  exact ⟨h.queue, h.arms.trans (by simp)⟩

/-- An evaluation of the queue admits none but arms that wait. -/
theorem State.evaluateQueueFor_outside {a : ArmId} (n : Nat) {s : State} (h : s.outside a) :
    (State.evaluateQueueFor n s).outside a := by
  induction n generalizing s with
  | zero => exact h
  | succ n ih =>
    unfold State.evaluateQueueFor
    split
    · exact h
    · rename_i b rest hq
      split
      · refine ih ?_
        obtain ⟨hqueue, hparts⟩ := s.admitHead_members b
        have hb : a ∉ b :: rest := hq ▸ h.1
        rw [List.mem_cons, not_or] at hb
        refine ⟨?_, ?_⟩
        · rw [hqueue, hq]; exact hb.2
        · rw [hparts, List.mem_append, not_or, List.mem_singleton]
          exact ⟨h.2, hb.1⟩
      · exact h

theorem State.evaluateQueue_outside {a : ArmId} {s : State} (h : s.outside a) : s.evaluateQueue.outside a :=
  State.evaluateQueueFor_outside _ h

/-- An arm that participates or not, but does not wait, is in the header no longer once it has left the participants. -/
theorem State.leaveParticipants_outside {a : ArmId} {s : State} (h : a ∉ s.header.queue) :
    (s.leaveParticipants a).outside a := by
  cases hp : s.participates a with
  | true =>
    unfold State.participates at hp
    unfold State.leaveParticipants
    rw [if_pos hp]
    exact State.evaluateQueue_outside ((State.recomputeGrants_sameMembers none _).outside ⟨h, by simp⟩)
  | false =>
    rw [State.leaveParticipants_of_not hp]
    exact ⟨h, by simpa using State.participates_false.mp hp⟩

theorem State.leaveQueue_outside {a : ArmId} {s : State} (h : a ∉ s.header.parts.map (·.arm)) :
    (s.leaveQueue a).outside a := by
  by_cases hq : a ∈ s.header.queue
  · unfold State.leaveQueue
    rw [if_pos (by simpa using hq)]
    dsimp only
    have ho : (s.modHeader fun h => { h with queue := h.queue.filter (· != a) }).outside a := ⟨by simp, h⟩
    split
    · exact State.evaluateQueue_outside ho
    · exact ho
  · rw [State.leaveQueue_of_not hq]
    exact ⟨hq, h⟩

/-- An arm that does not both wait and participate is in the header no longer once it has left it. -/
theorem State.leaveHeader_outside {a : ArmId} {s : State} (h : a ∈ s.header.queue → a ∉ s.header.parts.map (·.arm)) :
    (s.leaveHeader a).outside a := by
  unfold State.leaveHeader
  by_cases hp : a ∈ s.header.parts.map (·.arm)
  · exact State.leaveQueue_outside (State.leaveParticipants_outside fun hq => h hq hp).2
  · rw [State.leaveParticipants_of_not (State.participates_false.mpr (by simpa using hp))]
    exact State.leaveQueue_outside hp

theorem State.membersOkBut.once' {a : ArmId} {s : State} (h : s.membersOkBut a) (hq : a ∈ s.header.queue) :
    a ∉ s.header.parts.map (·.arm) := by
  simpa using h.once hq

/-! ### The interval close (R104) -/

/-- The record that passes from BODY to FLUSH (R113). -/
def Load.enterFlush (l : Load) : Load := { l with phase := .flush, share := 0 }

theorem Load.enterFlush_kept {l : Load} (hl : l.state ≠ .ended) : LoadKept l l.enterFlush :=
  .of_plain hl hl ⟨rfl, rfl, rfl, rfl, rfl, rfl, rfl, rfl⟩ ⟨rfl, rfl, rfl, rfl, rfl, rfl⟩
    ⟨rfl, rfl, rfl, rfl⟩ ⟨rfl, rfl, rfl⟩

/-- A load that waits for admission passes to FLUSH: its arm leaves the queue and the load flows (R12). -/
theorem State.leaveHeader_enterFlowing_sound (a : ArmId) (s : State) :
    Sound s (State.enterFlowing a .flush (s.leaveHeader a)) := by
  have hl := s.leaveHeader_admits a
  refine ⟨hl.toKept.trans (State.enterFlowing_kept _ _ _), fun q h => ?_,
    fun q b h => State.enterFlowing_valves (hl.queues q) b (hl.valves q b h),
    fun h => State.enterFlowing_grants (hl.grants h)⟩
  have ho := State.leaveHeader_outside (h.membersOkBut a).once'
  exact State.enterFlowing_headerOk (hl.queues q) ((State.leaveHeader_headerOk q (h.membersOkBut a)).membersOkBut a)
    ho.1 fun p hp e => absurd (List.mem_map.mpr ⟨p, hp, e⟩) ho.2

/-- The findings of a close: a load that passes to FLUSH may leave its arm's valve commands to the split that follows. -/
theorem State.actFindings_but {a : ArmId} {l : Load} {s : State} (hl : s.head a = some l) :
    SoundBut a s (s.actFindings a l) := by
  unfold State.actFindings
  split
  · exact (State.enterSettling_sound _ _ _).but a
  · split
    · split
      · rename_i hs
        split
        · exact State.modHead_leaveHeader_but (f := Load.enterFlush) (fun _ => Load.enterFlush_kept) (fun _ => id)
            (fun k hk => by rw [Option.some.inj (hk.symm.trans hl)]; simp [Load.enterFlush, hs, LoadState.delivers])
            (.refl _) rfl rfl
        · exact (Sound.refl s).but a
      · rename_i hs
        refine (State.modHead_sound_of_body (f := Load.enterFlush) (fun _ => Load.enterFlush_kept) (fun _ => rfl)
          fun k hk => ?_).but a
        rw [Option.some.inj (hk.symm.trans hl)]
        simp only [Load.enterFlush, Load.inBody, hs]
        rfl
      · exact (State.leaveHeader_enterFlowing_sound a s).but a
      all_goals exact (Sound.refl s).but a
    · exact (Sound.refl s).but a

theorem Load.shareAndAlarm_kept (d : ArmDef) (r : Recipe) {l : Load} (hl : l.state ≠ .ended) :
    LoadKept l (l.shareAndAlarm d r) :=
  .of_plain hl hl ⟨rfl, rfl, rfl, rfl, rfl, rfl, rfl, rfl⟩ ⟨rfl, rfl, rfl, rfl, rfl, rfl⟩
    ⟨rfl, rfl, rfl, rfl⟩ ⟨rfl, rfl, rfl⟩

theorem State.judgeLag_sound (a : ArmId) (s : State) : Sound s (s.judgeLag a) := by
  unfold State.judgeLag
  split
  · exact .refl s
  · split
    · refine Sound.trans (State.forAll_sound fun _ _ t => State.modInjector_sound ?_)
        (State.forAllFree_sound fun _ _ t => State.takeCause_sound _ _ _ t)
      exact { InjectorKept.refl _ with stroke := id }
    · exact .refl s

/-- The flow unit's part of a close ends in the split, which leaves the arm's valve commands as R133 says. -/
theorem State.handToFlow_eq (a : ArmId) (s : State) : ∃ t, s.handToFlow a = t.formSplit a ∧ Admits s t := by
  unfold State.handToFlow
  split
  · exact ⟨_, rfl, s.evalProfile_admits a⟩
  · exact ⟨s, rfl, .refl s⟩

theorem State.handToFlow_settles {a : ArmId} {s t : State} (h : SoundBut a s t) : Sound s (t.handToFlow a) := by
  obtain ⟨u, he, hu⟩ := t.handToFlow_eq a
  rw [he]
  exact (h.trans_admits hu).settled (u.formSplit_sound a) fun _ hv => State.formSplit_settles hv

theorem State.handToInjectors_sound (a : ArmId) (s : State) : Sound s (s.handToInjectors a) :=
  Sound.trans (Sound.trans (State.modHead_sound (f := fun l => s.writeDue l.v l)
    (fun l hl => State.writeDue_kept s l.v hl) fun _ => ⟨rfl, rfl⟩) (State.judgeLag_sound _ _))
      (State.testAllFiring_admits _ _).toSound

theorem State.netCloseRole_stage (s : State) (d : ArmDef) (live : Bool) (r : Role) (l : Load) :
    (s.netCloseRole d live r l).state = l.state ∧ (s.netCloseRole d live r l).phase = l.phase := by
  unfold State.netCloseRole
  split
  · exact ⟨rfl, rfl⟩
  · cases r <;> exact ⟨rfl, rfl⟩

theorem State.netCloseLoad_stage (s : State) (live : Bool) (l : Load) :
    (s.netCloseLoad live l).state = l.state ∧ (s.netCloseLoad live l).phase = l.phase := by
  have h1 := s.netCloseRole_stage (s.defn l.arm) live .base l
  have h2 := s.netCloseRole_stage (s.defn l.arm) live .ethanol (s.netCloseRole (s.defn l.arm) live .base l)
  exact ⟨h2.1.trans h1.1, h2.2.trans h1.2⟩

theorem State.closeAccounts_stage (s : State) (l : Load) :
    (s.closeAccounts l).state = l.state ∧ (s.closeAccounts l).phase = l.phase := by
  have h := s.netCloseLoad_stage true { l with vc := l.v }
  unfold State.closeAccounts
  dsimp only
  split
  · exact ⟨h.1, h.2⟩
  · exact h

/-- An operation that leaves no load delivering at the arm, or none at all, leaves no valve command behind. -/
theorem SoundBut.sound_of_none {a : ArmId} {s t : State} (h : SoundBut a s t) (hn : t.head a = none) : Sound s t :=
  h.settled (.refl t) fun _ hv => hv (by simp [State.headIs, hn])

theorem State.intervalClose_sound (a : ArmId) (s : State) : Sound s (s.intervalClose a) := by
  have h3 : Admits s (s.modHead a s.closeAccounts) :=
    State.modHead_admits (fun _ => s.closeAccounts_kept) s.closeAccounts_stage
  unfold State.intervalClose
  dsimp only
  split
  · exact h3.toSound
  · rename_i l3 hl3
    have h4 : SoundBut a (s.modHead a s.closeAccounts) _ := State.actFindings_but hl3
    split
    · rename_i hn
      exact h3.toSound.trans (h4.sound_of_none hn)
    · rename_i l4 _
      have h5 : ∀ (d : ArmDef) (r : Recipe) (u : State),
          Admits u (if l4.inBody then u.modHead a (Load.shareAndAlarm d r) else u) := by
        intro d r u
        split
        · exact State.modHead_admits (fun _ => Load.shareAndAlarm_kept d r) fun _ => ⟨rfl, rfl⟩
        · exact .refl u
      have h6 := fun d r => (h3.toSound.trans (State.handToFlow_settles (h4.trans_admits (h5 d r _)))).trans
        (State.handToInjectors_sound a _)
      split
      · exact (h6 _ _).trans (State.takeCause_sound _ _ _ _)
      · exact h6 _ _

/-! ### The end of a load -/

/-- A reference count touches the recipe table and the attention flags alone. -/
theorem State.lowerReference_eq (c : Nat) (s : State) :
    s.lowerReference c =
      { s with recipes := (s.lowerReference c).recipes, attention := (s.lowerReference c).attention } := by
  unfold State.lowerReference
  split
  · rfl
  · split <;> rfl

@[simp] theorem State.lowerReference_loads (c : Nat) (s : State) : (s.lowerReference c).loads = s.loads := by
  rw [State.lowerReference_eq]

@[simp] theorem State.lowerReference_header (c : Nat) (s : State) : (s.lowerReference c).header = s.header := by
  rw [State.lowerReference_eq]

@[simp] theorem State.lowerReference_arm (c : Nat) (s : State) (a : ArmId) :
    (s.lowerReference c).arm a = s.arm a := by
  rw [State.lowerReference_eq]
  rfl

theorem State.lowerReference_sound (c : Nat) (s : State) : Sound s (s.lowerReference c) :=
  .of_same (s.lowerReference_kept c) (by simp) (State.head_congr (by simp)) fun a => by simp

/-- The settling head load of an arm is ended: nothing of the arm was in the header or open (R14). -/
theorem State.modHead_settled_sound {a : ArmId} {f : Load → Load} {s : State}
    (hf : ∀ l, l.state ≠ .ended → LoadKept l (f l)) (hs : s.headIs a (· == .settling) = true) :
    Sound s (s.modHead a f) where
  toKept := State.modHead_kept hf
  header := fun _ h => by
    obtain ⟨l, hl, he⟩ : ∃ l, s.head a = some l ∧ l.state = .settling := by
      simpa [State.headIs, Option.any_eq_true] using hs
    obtain ⟨hq, hp⟩ := h.not_member hl (by simp [he]) (by simp [Load.inBody, he])
    exact ((h.membersOkBut a).modHead fun l hl => (hf l hl).arm).headerOk (fun ha => absurd ha hq)
      fun p hpm e => absurd e (hp p hpm)
  valves := fun _ b h => by
    by_cases hb : b = a
    · subst hb
      refine State.armValvesOk_of_shut (h.shut ?_).1 (h.shut ?_).2 <;>
      · cases hl : s.head b with
        | none => simp [State.headIs, hl]
        | some l =>
          rw [State.headIs_of_head hl, beq_iff_eq] at hs
          rw [State.headIs_of_head hl, hs]
          rfl
    · exact State.modHead_armValvesOk_ne (fun l hl => (hf l hl).arm) hb h
  grants := id

theorem State.enterEnded_sound {a : ArmId} (l : Load) {s : State} (hs : s.headIs a (· == .settling) = true) :
    Sound s (s.enterEnded a l) := by
  have h1 := State.modHead_settled_sound (f := s.concludeLoad l.settledOutcome (s.arm a).flow.overrun)
    (fun _ => s.concludeLoad_kept _ _) hs
  refine ((h1.trans (State.modArm_sound (fun x => ?_) fun _ => ?_)).trans
      (State.lowerReference_sound _ _)).trans (State.attend_sound _ _)
  · exact { ArmKept.refl x with }
  · exact ⟨rfl, rfl⟩

theorem State.tryEnd_sound (a : ArmId) (s : State) : Sound s (s.tryEnd a) := by
  unfold State.tryEnd
  split
  · exact .refl s
  · split
    · rename_i h
      simp only [State.endDue, Bool.and_eq_true] at h
      exact State.enterEnded_sound _ h.1.1
    · exact .refl s

theorem State.testReadiness_sound (a : ArmId) (s : State) : Sound s (s.testReadiness a) := by
  unfold State.testReadiness
  split
  · exact .refl s
  · split
    · exact State.modArm_sound (fun x => { ArmKept.refl x with }) fun _ => ⟨rfl, rfl⟩
    · exact .refl s

theorem State.beginCatchUp_sound (a : ArmId) (s : State) : Sound s (s.beginCatchUp a) := by
  unfold State.beginCatchUp
  split
  · refine Sound.trans (State.modArm_sound (fun x => ?_) fun _ => ?_) (State.testAllFiring_admits _ _).toSound
    · exact { ArmKept.refl x with }
    · exact ⟨rfl, rfl⟩
  · exact .refl s

/-- The record at its final close (R116): the net closes, the close volume and the strokes due. -/
def State.finalLoad (s : State) (l : Load) : Load :=
  let l1 := s.netCloseLoad true l
  s.writeDue l1.v { l1 with vc := l1.v }

theorem State.finalLoad_stage (s : State) (l : Load) :
    (s.finalLoad l).state = l.state ∧ (s.finalLoad l).phase = l.phase := s.netCloseLoad_stage true l

theorem State.finalLoad_kept (s : State) {l : Load} (hl : l.state ≠ .ended) : LoadKept l (s.finalLoad l) := by
  have h1 := s.netCloseLoad_kept true hl
  have hs : (s.netCloseLoad true l).state ≠ .ended := by rw [h1.2]; exact hl
  refine (h1.1.trans ?_).trans (s.writeDue_kept _
    (l := { s.netCloseLoad true l with vc := (s.netCloseLoad true l).v }) hs)
  exact .of_plain hs hs ⟨rfl, rfl, rfl, rfl, rfl, rfl, rfl, rfl⟩ ⟨rfl, rfl, rfl, rfl, rfl, rfl⟩
    ⟨rfl, rfl, rfl, rfl⟩ ⟨rfl, rfl, rfl⟩

theorem State.finalClose_eq (a : ArmId) (s : State) :
    s.finalClose a = State.testReadiness a (State.beginCatchUp a (s.modHead a s.finalLoad)) := rfl

theorem State.finalClose_sound (a : ArmId) (s : State) : Sound s (s.finalClose a) := by
  rw [State.finalClose_eq]
  exact ((State.modHead_sound (fun _ => s.finalLoad_kept) s.finalLoad_stage).trans
    (State.beginCatchUp_sound _ _)).trans (State.testReadiness_sound _ _)

theorem State.completeSettle_sound (a : ArmId) (s : State) : Sound s (s.completeSettle a) := by
  have h2 : Sound s (State.finalClose a (s.modFlow a fun f =>
      { f with settleTimer := none, maxTimer := none, settleComplete := true })) :=
    (State.modFlow_sound _ _ _).trans (State.finalClose_sound _ _)
  unfold State.completeSettle
  dsimp only
  split
  · exact h2
  · have h3 := fun g => h2.trans (State.modFlow_sound a g _)
    split
    · exact ((h3 _).trans (State.takeCause_sound _ _ _ _)).trans (State.tryEnd_sound _ _)
    · exact (h3 _).trans (State.tryEnd_sound _ _)

theorem State.expireSettle_sound (a : ArmId) (s : State) : Sound s (s.expireSettle a) := by
  unfold State.expireSettle
  split
  · exact State.completeSettle_sound _ _
  · exact .refl s

theorem State.expireMaxSettle_sound (a : ArmId) (s : State) : Sound s (s.expireMaxSettle a) := by
  have h1 : Sound s (s.modFlow a fun f => { f with maxTimer := none }) := State.modFlow_sound _ _ _
  unfold State.expireMaxSettle
  dsimp only
  split
  · split
    · split
      · exact h1
      · exact h1.trans (State.takeCause_sound _ _ _ _)
    · exact h1
  · exact .refl s

/-! ### Pulses -/

theorem Load.credit_stage (m : Meter) (r : Role) (l : Load) :
    (l.credit m r).state = l.state ∧ (l.credit m r).phase = l.phase := by
  cases r <;> exact ⟨rfl, rfl⟩

theorem State.watchLeak_sound (a : ArmId) (m : MeterId) (s : State) : Sound s (s.watchLeak a m) := by
  unfold State.watchLeak
  dsimp only
  split
  · refine Sound.trans (State.modArm_sound (fun x => ?_) fun _ => ?_) (State.takeCause_sound _ _ _ _)
    · exact { ArmKept.refl x with }
    · exact ⟨rfl, rfl⟩
  · exact .refl s

theorem State.strayPulse_sound (a : ArmId) (r : Role) (m : MeterId) (s : State) :
    Sound s (s.strayPulse a r m) := by
  unfold State.strayPulse
  dsimp only
  refine Sound.trans (Sound.trans (State.modArm_sound (fun x => ?_) fun x => ?_)
    (State.modArm_sound (fun x => ?_) fun _ => ?_)) (State.watchLeak_sound _ _ _)
  · cases r <;> exact { ArmKept.refl x with }
  · cases r <;> exact ⟨rfl, rfl⟩
  · exact { ArmKept.refl x with }
  · exact ⟨rfl, rfl⟩

theorem Load.rstLeft_kept (n : Nat) {l : Load} (hl : l.state ≠ .ended) : LoadKept l { l with rstLeft := n } :=
  .of_plain hl hl ⟨rfl, rfl, rfl, rfl, rfl, rfl, rfl, rfl⟩ ⟨rfl, rfl, rfl, rfl, rfl, rfl⟩
    ⟨rfl, rfl, rfl, rfl⟩ ⟨rfl, rfl, rfl⟩

theorem State.updateRestart_sound (a : ArmId) (s : State) : Sound s (s.updateRestart a) := by
  have h1 : ∀ n : Nat, Sound s (s.modHead a fun l => { l with rstLeft := n }) := fun n =>
    State.modHead_sound (f := fun l => { l with rstLeft := n }) (fun _ => Load.rstLeft_kept n) fun _ => ⟨rfl, rfl⟩
  unfold State.updateRestart
  split
  · exact .refl s
  · split
    · dsimp only
      split
      · exact ((h1 _).trans (State.snapDemand_admits _ _).toSound).trans (State.formSplit_sound _ _)
      · exact h1 _
    · exact .refl s

theorem State.reportPulse_sound (a : ArmId) (r : Role) (m : MeterId) (settling : Bool) (s : State) :
    Sound s (s.reportPulse a r m settling) := by
  have h1 := s.updateRestart_sound a
  unfold State.reportPulse
  dsimp only
  split
  · exact h1
  · split
    · exact h1.trans (State.modFlow_sound _ _ _)
    · split
      · exact (h1.trans (State.modFlow_sound _ _ _)).trans (State.enterSettling_sound _ _ _)
      · exact h1.trans (State.modFlow_sound _ _ _)
    · split
      · exact h1.trans (State.modFlow_sound _ _ _)
      · exact h1
    all_goals exact h1

theorem State.closeIfDue_sound (a : ArmId) (s : State) : Sound s (s.closeIfDue a) := by
  unfold State.closeIfDue
  split
  · exact .refl s
  · dsimp only
    split
    · exact State.intervalClose_sound _ _
    · exact .refl s

theorem State.boundPulse_sound (a : ArmId) (r : Role) (m : MeterId) (s : State) :
    Sound s (s.boundPulse a r m) := by
  unfold State.boundPulse
  split
  · exact State.strayPulse_sound _ _ _ _
  · exact ((State.modHead_sound (fun _ => Load.credit_kept _ _) (Load.credit_stage _ _)).trans
      (State.closeIfDue_sound _ _)).trans (State.reportPulse_sound _ _ _ _ _)

/-! ### Injectors -/

theorem State.afterStroke_sound (ch : InjId) (s : State) : Sound s (s.afterStroke ch) := by
  unfold State.afterStroke
  split
  · exact .refl s
  · exact ((State.testFiring_admits _ _ _).toSound.trans (State.testReadiness_sound _ _)).trans
      (State.tryEnd_sound _ _)

theorem State.endPulse_sound (ch : InjId) (s : State) : Sound s (s.endPulse ch) := by
  have hsame : (s.endPulse ch).header = s.header ∧ (s.endPulse ch).loads = s.loads ∧
      (s.endPulse ch).arms = s.arms := by
    unfold State.endPulse
    split <;> exact ⟨rfl, rfl, rfl⟩
  exact .of_same (s.endPulse_kept ch) hsame.1 (State.head_congr hsame.2.1) fun a => by
    simp only [State.arm, hsame.2.2]
    exact ⟨trivial, trivial⟩

theorem State.raiseFail_sound (ch : InjId) (n : Nat) (s : State) : Sound s (s.raiseFail ch n) := by
  unfold State.raiseFail
  split
  · exact .refl s
  · split
    · exact State.takeCause_sound _ _ _ _
    · exact .refl s

/-! ### Header pressure -/

theorem State.raisePressure_sound (a : ArmId) (s : State) : Sound s (s.raisePressure a) := by
  unfold State.raisePressure
  split
  · exact State.takeCause_sound _ _ _ _
  · exact .refl s

theorem State.losePressure_sound (s : State) : Sound s s.losePressure :=
  (State.recomputeGrants_sound _ _).trans (State.forAll_sound fun a _ t => t.raisePressure_sound a)

theorem State.losePressure_grants (s : State) : s.losePressure.grantsOk :=
  (State.forAll_sound fun a _ t => t.raisePressure_sound a).grants (State.recomputeGrants_grantsOk _ _)

theorem State.regainPressure_sound (s : State) : Sound s s.regainPressure :=
  (State.recomputeGrants_sound _ _).trans (State.evaluateQueue_admits _).toSound

end Sys2Proof.Machine
end

section
/-! PROOFS. What a command keeps of the state, whatever it is: the tables, the arm queues, the header's members, the
valve commands, the grants, the flags and the settings. -/

namespace Sys2Proof.Machine

/-! ### Tables whose records keep their places -/

/-- A record that keeps its arm, and its state unless it ends. -/
structure StateKept (l m : Load) : Prop where
  arm   : m.arm = l.arm
  state : m.state = l.state ∨ m.state = .ended

/-- A record that keeps its arm, state and phase. -/
structure StageKept (l m : Load) : Prop where
  arm   : m.arm = l.arm
  state : m.state = l.state
  phase : m.phase = l.phase

theorem StageKept.refl (l : Load) : StageKept l l := ⟨rfl, rfl, rfl⟩

theorem StageKept.toStateKept {l m : Load} (h : StageKept l m) : StateKept l m := ⟨h.arm, .inl h.state⟩

theorem forall₂_imp {α : Type} {R S : α → α → Prop} (h : ∀ x y, R x y → S x y) {l m : List α}
    (hr : List.Forall₂ R l m) : List.Forall₂ S l m := hr.imp h

theorem forall₂_map_self {α : Type} {R : α → α → Prop} {f : α → α} (h : ∀ x, R x (f x)) (l : List α) :
    List.Forall₂ R l (l.map f) := by
  induction l with
  | nil => exact .nil
  | cons x xs ih => exact .cons (h x) ih

/-- The states of the records of each arm's queue, after records have kept theirs or ended. -/
theorem armQueue_states_sublist {l m : List Load} (h : List.Forall₂ StateKept l m) (a : ArmId) :
    ((m.filter fun x => x.arm == a && x.state != .ended).map (·.state)).Sublist
      ((l.filter fun x => x.arm == a && x.state != .ended).map (·.state)) := by
  induction h with
  | nil => exact .slnil
  | @cons x y xs ys hxy _ ih =>
    simp only [List.filter_cons, hxy.arm]
    rcases hxy.state with hs | hs
    · rw [hs]
      split
      · simpa only [List.map_cons, hs] using ih.cons_cons _
      · exact ih
    · simp only [hs, bne_self_eq_false, Bool.and_false, Bool.false_eq_true, if_false]
      split
      · exact ih.cons _
      · exact ih

/-- R3 speaks of the states of each arm's queue alone, and of fewer of them the more. -/
theorem State.queuesOk_of_sublist {s t : State}
    (h : ∀ a, ((t.armQueue a).map (·.state)).Sublist ((s.armQueue a).map (·.state))) (q : s.queuesOk) :
    t.queuesOk := by
  intro a
  obtain ⟨hlen, hrest⟩ := q a
  refine ⟨by simpa using (h a).length_le.trans (by simpa using hlen), fun l hl => ?_⟩
  have hdrop : (((t.armQueue a).drop 1).map (·.state)).Sublist (((s.armQueue a).drop 1).map (·.state)) := by
    rw [List.map_drop, List.map_drop]
    exact (h a).drop 1
  obtain ⟨x, hx, he⟩ := List.mem_map.mp (hdrop.subset (List.mem_map_of_mem hl))
  exact he.symm.trans (hrest x hx)

theorem State.queuesOk_of_forall₂ {s t : State} (h : List.Forall₂ StateKept s.loads t.loads) (q : s.queuesOk) :
    t.queuesOk :=
  State.queuesOk_of_sublist (fun a => armQueue_states_sublist h a) q

theorem State.queuesOk_of_loads_sublist {s t : State} (h : t.loads.Sublist s.loads) (q : s.queuesOk) :
    t.queuesOk :=
  State.queuesOk_of_sublist (fun _ => (h.filter _).map _) q

/-- The head loads after every record has kept its stage. -/
theorem head_stages {l m : List Load} (h : List.Forall₂ StageKept l m) (a : ArmId) (p : LoadState → Phase → Bool) :
    ((m.find? fun x => x.arm == a && x.state != .ended).any fun x => p x.state x.phase) =
      ((l.find? fun x => x.arm == a && x.state != .ended).any fun x => p x.state x.phase) := by
  induction h with
  | nil => rfl
  | @cons x y xs ys hxy _ ih =>
    simp only [List.find?_cons, hxy.arm, hxy.state]
    split
    · simp [hxy.state, hxy.phase]
    · exact ih

theorem State.headIs_stages {s t : State} (h : List.Forall₂ StageKept s.loads t.loads) (a : ArmId)
    (p : LoadState → Bool) : t.headIs a p = s.headIs a p :=
  head_stages h a fun x _ => p x

theorem State.inBody_stages {s t : State} (h : List.Forall₂ StageKept s.loads t.loads) (a : ArmId) :
    (t.head a).any Load.inBody = (s.head a).any Load.inBody :=
  head_stages h a fun x p => x == .flowing && p == .body

theorem State.headerOk_stages {s t : State} (h : List.Forall₂ StageKept s.loads t.loads) (hm : SameMembers s t)
    (hs : s.headerOk) : t.headerOk := by
  have hmem : ∀ p ∈ t.header.parts, ∃ x ∈ s.header.parts, x.arm = p.arm := fun p hpt =>
    List.mem_map.mp (hm.arms ▸ List.mem_map_of_mem hpt)
  refine ⟨fun a ha => ?_, fun p hp => ?_, hm.queue ▸ hs.2.2.1, hm.arms ▸ hs.2.2.2⟩
  · rw [State.headIs_stages h]
    exact hs.1 a (hm.queue ▸ ha)
  · obtain ⟨x, hx, he⟩ := hmem p hp
    rw [State.inBody_stages h, ← he]
    exact hs.2.1 x hx

theorem State.armValvesOk_stages {s t : State} (h : List.Forall₂ StageKept s.loads t.loads) {a : ArmId}
    (ha : t.arm a = s.arm a) (hv : s.armValvesOk a) : t.armValvesOk a := by
  simpa only [State.armValvesOk, State.headIs_stages h, State.inBody_stages h, ha] using hv

/-! ### Settings -/

/-- What O58 says of one command. -/
structure SettingsKept (c : Instr) (s t : State) : Prop where
  meters      : (∀ f, c ≠ .setMeter f) → ∀ m, (t.meter m).settings = (s.meter m).settings
  injectors   : (∀ f, c ≠ .setInjector f) → ∀ j, (t.injector j).settings = (s.injector j).settings
  metrology   : (∀ f, c ≠ .setMeter f) → (∀ f, c ≠ .setInjector f) → t.metrology = s.metrology
  count       : min 65535 s.metrology ≤ t.metrology
  header      : (∀ f, c ≠ .setHeader f) → t.header.settings = s.header.settings
  causes      : (∀ f, c ≠ .setCause f) → t.causes = s.causes
  attention   : (∀ f, c ≠ .setAttentionEnable f) →
    t.attention.enabled = s.attention.enabled ∧ t.attention.master = s.attention.master
  timeout     : (∀ f, c ≠ .setLink f) → t.link.timeout = s.link.timeout
  definitions : (∀ f, c ≠ .setArm f) → (∀ f, c ≠ .decommissionArm f) → ∀ a, (t.arm a).defn = (s.arm a).defn
  lanes       : (∀ f, c ≠ .resetLane f) → ∀ n, (s.lane n).shut = true →
    (t.lane n).shut = true ∧ (t.lane n).shutCause = (s.lane n).shutCause
  locks       : (∀ f, c ≠ .resetArm f) → (∀ f, c ≠ .resetLane f) → ∀ a, (s.arm a).locked = true →
    (t.arm a).locked = true ∧ (t.arm a).lockRecord = (s.arm a).lockRecord

theorem SettingsKept.refl (c : Instr) (s : State) : SettingsKept c s s where
  meters := fun _ _ => rfl
  injectors := fun _ _ => rfl
  metrology := fun _ _ => rfl
  count := min_le_right _ _
  header := fun _ => rfl
  causes := fun _ => rfl
  attention := fun _ => ⟨rfl, rfl⟩
  timeout := fun _ => rfl
  definitions := fun _ _ _ => rfl
  lanes := fun _ _ h => ⟨h, rfl⟩
  locks := fun _ _ _ h => ⟨h, rfl⟩

theorem SettingsKept.trans {c : Instr} {s t u : State} (h : SettingsKept c s t) (g : SettingsKept c t u) :
    SettingsKept c s u where
  meters := fun e m => (g.meters e m).trans (h.meters e m)
  injectors := fun e j => (g.injectors e j).trans (h.injectors e j)
  metrology := fun e d => (g.metrology e d).trans (h.metrology e d)
  count := (le_min (min_le_left _ _) h.count).trans g.count
  header := fun e => (g.header e).trans (h.header e)
  causes := fun e => (g.causes e).trans (h.causes e)
  attention := fun e => ⟨(g.attention e).1.trans (h.attention e).1, (g.attention e).2.trans (h.attention e).2⟩
  timeout := fun e => (g.timeout e).trans (h.timeout e)
  definitions := fun e d a => (g.definitions e d a).trans (h.definitions e d a)
  lanes := fun e n hs =>
    have h1 := h.lanes e n hs
    have h2 := g.lanes e n h1.1
    ⟨h2.1, h2.2.trans h1.2⟩
  locks := fun e d a hs =>
    have h1 := h.locks e d a hs
    have h2 := g.locks e d a h1.1
    ⟨h2.1, h2.2.trans h1.2⟩

theorem SettingsKept.of_kept (c : Instr) {s t : State} (h : Kept s t) : SettingsKept c s t where
  meters := fun _ m => by rw [h.meter]
  injectors := fun _ j => (h.injector j).settings
  metrology := fun _ _ => h.metrology
  count := h.metrology ▸ min_le_right _ _
  header := fun _ => h.capacity
  causes := fun _ => h.causes
  attention := fun _ => ⟨h.enabled, h.master⟩
  timeout := fun _ => by rw [h.link]
  definitions := fun _ _ a => (h.arm a).defn
  lanes := fun _ n hs => by rw [(h.lane n).shut hs]; exact ⟨hs, rfl⟩
  locks := fun _ _ a => (h.arm a).locked

/-! ### The relation -/

/-- What a command keeps of the state. -/
structure Obeys (c : Instr) (s t : State) : Prop where
  pending     : t.pending = s.pending
  loadTable   : s.loadTableOk → t.loadTableOk
  recipeTable : s.recipeTableOk → t.recipeTableOk
  records     : s.recordsOk → t.recordsOk
  carries     : s.carriesOk → t.carriesOk
  queues      : s.queuesOk → t.queuesOk
  members     : s.queuesOk → s.headerOk → t.headerOk
  valves      : s.queuesOk → s.valvesFollowLoad → t.valvesFollowLoad
  grants      : s.grantsOk → t.grantsOk
  range       : s.valvesInRange → t.valvesInRange
  strokes     : s.strokesOk → t.strokesOk
  permissives : s.permissivesOk → t.permissivesOk
  causes      : s.causesOk → t.causesOk
  locks       : s.locksOk → t.locksOk
  ended       : (∀ f, c ≠ .retireLoad f) → ∀ l ∈ s.loads, l.state = .ended →
    (∀ j, (s.injector j).strokeLoad ≠ some l.number) → l ∈ t.loads
  settings    : (∀ f, c ≠ .factoryClear f) → SettingsKept c s t

theorem Obeys.refl (c : Instr) (s : State) : Obeys c s s where
  pending := rfl
  loadTable := id
  recipeTable := id
  records := id
  carries := id
  queues := id
  members := fun _ => id
  valves := fun _ => id
  grants := id
  range := id
  strokes := id
  permissives := id
  causes := id
  locks := id
  ended := fun _ _ hl _ _ => hl
  settings := fun _ => .refl c s

/-- One change after another that leaves the strokes in flight. -/
theorem Obeys.trans {c : Instr} {s t u : State} (h : Obeys c s t) (g : Obeys c t u)
    (hj : ∀ j, (t.injector j).strokeLoad = (s.injector j).strokeLoad) : Obeys c s u where
  pending := g.pending.trans h.pending
  loadTable := g.loadTable ∘ h.loadTable
  recipeTable := g.recipeTable ∘ h.recipeTable
  records := g.records ∘ h.records
  carries := g.carries ∘ h.carries
  queues := g.queues ∘ h.queues
  members := fun q e => g.members (h.queues q) (h.members q e)
  valves := fun q e => g.valves (h.queues q) (h.valves q e)
  grants := g.grants ∘ h.grants
  range := g.range ∘ h.range
  strokes := g.strokes ∘ h.strokes
  permissives := g.permissives ∘ h.permissives
  causes := g.causes ∘ h.causes
  locks := g.locks ∘ h.locks
  ended := fun hc l hl he hs => g.ended hc l (h.ended hc l hl he hs) he fun j => by rw [hj]; exact hs j
  settings := fun hc => (h.settings hc).trans (g.settings hc)

/-- A change, then operations on loads in progress. -/
theorem Obeys.trans_sound {c : Instr} {s t u : State} (h : Obeys c s t) (g : Sound t u) : Obeys c s u where
  pending := g.pending.trans h.pending
  loadTable := g.toKept.loadTableOk ∘ h.loadTable
  recipeTable := g.toKept.recipeTableOk ∘ h.recipeTable
  records := g.toKept.recordsOk ∘ h.records
  carries := g.toKept.carriesOk ∘ h.carries
  queues := g.queues ∘ h.queues
  members := fun q e => g.header (h.queues q) (h.members q e)
  valves := fun q e a => g.valves (h.queues q) a (h.valves q e a)
  grants := g.grants ∘ h.grants
  range := g.toKept.valvesInRange ∘ h.range
  strokes := g.toKept.strokesOk ∘ h.strokes
  permissives := g.toKept.permissivesOk ∘ h.permissives
  causes := g.toKept.causesOk ∘ h.causes
  locks := g.toKept.locksOk ∘ h.locks
  ended := fun hc l hl he hs => g.toKept.ended_mem (h.ended hc l hl he hs) he
  settings := fun hc => (h.settings hc).trans (.of_kept c g.toKept)

theorem Sound.obeys {s t : State} (h : Sound s t) (c : Instr) : Obeys c s t := (Obeys.refl c s).trans_sound h

/-- The link unit's part of an answer changes nothing of what a command keeps. -/
theorem Obeys.answered {c : Instr} {s t : State} (h : Obeys c s t) (r : Response) : Obeys c s (s.answered t r) :=
  { h with settings := fun hc => { h.settings hc with } }

theorem Obeys.answeredStopped {c : Instr} {s t : State} (h : Obeys c s t) (r : Response) :
    Obeys c s (s.answeredStopped t r) :=
  { h with settings := fun hc => { h.settings hc with } }

/-! ### Events and requests -/

theorem event_obeys {c : Instr} {f : State → State} {s t : State} (h : event f s = .next t)
    (hf : s.powered = true → Obeys c s (f s)) : Obeys c s t := by
  rcases event_cases h with ⟨hp, rfl⟩ | ⟨-, rfl⟩
  · exact hf hp
  · exact .refl c t

theorem request_obeys {α : Type} {parse : Except Code α} {refuse : α → State → Option Code}
    {accept : α → State → State} {answer : α → State → State → Response} {c : Instr} {s t : State}
    (h : request parse refuse accept answer s = .next t)
    (hf : ∀ q, parse = .ok q → refuse q s = none → Obeys c s (accept q s)) : Obeys c s t := by
  rcases request_cases h with ⟨-, rfl⟩ | ⟨-, k, rfl, -⟩ | ⟨-, q, hq, hr, rfl⟩
  · exact .refl c t
  · exact (Obeys.refl c s).answered _
  · exact (hf q hq hr).answered _

theorem report_obeys {α : Type} {parse : Except Code α} {answer : α → State → Response} {c : Instr} {s t : State}
    (h : report parse answer s = .next t) : Obeys c s t :=
  request_obeys h fun _ _ _ => .refl c s

/-! ### Changes of the link, the attention, the settings and the inputs -/

section
variable (c : Instr) (s : State)

/-- A change of the link that leaves the timeout setting. -/
theorem State.modLink_obeys {f : Link → Link} (h : (f s.link).timeout = s.link.timeout) :
    Obeys c s (s.modLink f) :=
  { Obeys.refl c s with settings := fun _ => { SettingsKept.refl c s with timeout := fun _ => h } }

theorem State.modMeter_obeys {m : MeterId} {f : Meter → Meter} (h : ∀ x, (f x).settings = x.settings) :
    Obeys c s (s.modMeter m f) :=
  { Obeys.refl c s with
    settings := fun _ =>
      { SettingsKept.refl c s with
        meters := fun _ i => by
          rw [State.modMeter_meter]
          split
          · rename_i e; rw [e]; exact h _
          · rfl } }

theorem State.modInjector_obeys {j : InjId} {f : Injector → Injector}
    (h : (f (s.injector j)).settings = (s.injector j).settings) (ho : (s.injector j).strokeOk → (f (s.injector j)).strokeOk) :
    Obeys c s (s.modInjector j f) :=
  { Obeys.refl c s with
    strokes := fun hs i => by
      rw [State.modInjector_injector]
      split
      · rename_i e; rw [e]; exact ho (hs j)
      · exact hs i
    settings := fun _ =>
      { SettingsKept.refl c s with
        injectors := fun _ i => by
          rw [State.modInjector_injector]
          split
          · rename_i e; rw [e]; exact h
          · rfl } }

theorem State.modInjector_strokeLoad {j : InjId} {f : Injector → Injector}
    (h : (f (s.injector j)).strokeLoad = (s.injector j).strokeLoad) (i : InjId) :
    ((s.modInjector j f).injector i).strokeLoad = (s.injector i).strokeLoad := by
  rw [State.modInjector_injector]
  split
  · rename_i e; rw [e]; exact h
  · rfl

theorem State.modLane_obeys {n : LaneId} {f : Lane → Lane}
    (hl : (s.lane n).shutCause.isSome = (s.lane n).shut → (f (s.lane n)).shutCause.isSome = (f (s.lane n)).shut)
    (hs : (∀ f, c ≠ .resetLane f) → (s.lane n).shut = true →
      (f (s.lane n)).shut = true ∧ (f (s.lane n)).shutCause = (s.lane n).shutCause) :
    Obeys c s (s.modLane n f) :=
  { Obeys.refl c s with
    locks := fun h => ⟨h.1, fun k => by
      rw [State.modLane_lane]
      split
      · rename_i e; rw [e]; exact hl (h.2 n)
      · exact h.2 k⟩
    settings := fun _ =>
      { SettingsKept.refl c s with
        lanes := fun hc k hk => by
          rw [State.modLane_lane]
          split
          · rename_i e
            rw [e] at hk ⊢
            exact hs hc hk
          · exact ⟨hk, rfl⟩ } }

/-- A change of one arm that leaves its valve commands or sets both to 0. -/
structure ArmObeys (c : Instr) (x y : Arm) : Prop where
  valves     : y.valveBase = x.valveBase ∧ y.valveEth = x.valveEth ∨ y.valveBase = 0 ∧ y.valveEth = 0
  permissive : x.permissive = x.derivedPermissive → y.permissive = y.derivedPermissive
  lock       : x.lockRecord.isSome = x.locked → y.lockRecord.isSome = y.locked
  defn       : (∀ f, c ≠ .setArm f) → (∀ f, c ≠ .decommissionArm f) → y.defn = x.defn
  locked     : (∀ f, c ≠ .resetArm f) → (∀ f, c ≠ .resetLane f) → x.locked = true →
    y.locked = true ∧ y.lockRecord = x.lockRecord

theorem State.modArm_obeys {a : ArmId} {f : Arm → Arm} (h : ArmObeys c (s.arm a) (f (s.arm a))) :
    Obeys c s (s.modArm a f) := by
  have hcases : ∀ P : Arm → Arm → Prop, P (s.arm a) (f (s.arm a)) → (∀ x, P x x) →
      ∀ b, P (s.arm b) ((s.modArm a f).arm b) := fun P h1 h2 b => by
    rw [State.modArm_arm]
    split
    · rename_i e; rw [e]; exact h1
    · exact h2 _
  refine { Obeys.refl c s with
    valves := fun _ hv b => ?_
    range := fun hr b => ?_
    permissives := fun hp b => ?_
    locks := fun hl => ⟨fun b => ?_, hl.2⟩
    settings := fun _ =>
      { SettingsKept.refl c s with
        definitions := fun h1 h2 b => hcases (fun x y => y.defn = x.defn) (h.defn h1 h2) (fun _ => rfl) b
        locks := fun h1 h2 b => hcases (fun x y => x.locked = true → y.locked = true ∧ y.lockRecord = x.lockRecord)
          (h.locked h1 h2) (fun _ hx => ⟨hx, rfl⟩) b } }
  · rcases hcases (fun x y => y.valveBase = x.valveBase ∧ y.valveEth = x.valveEth ∨ y.valveBase = 0 ∧ y.valveEth = 0)
      h.valves (fun _ => .inl ⟨rfl, rfl⟩) b with ⟨h1, h2⟩ | ⟨h1, h2⟩
    · exact State.armValvesOk_congr (s := s) rfl h1 h2 (hv b)
    · exact State.armValvesOk_of_shut h1 h2
  · rcases hcases (fun x y => y.valveBase = x.valveBase ∧ y.valveEth = x.valveEth ∨ y.valveBase = 0 ∧ y.valveEth = 0)
      h.valves (fun _ => .inl ⟨rfl, rfl⟩) b with ⟨h1, h2⟩ | ⟨h1, h2⟩
    · rw [h1, h2]; exact hr b
    · rw [h1, h2]; omega
  · exact hcases (fun x y => x.permissive = x.derivedPermissive → y.permissive = y.derivedPermissive)
      h.permissive (fun _ => id) b (hp b)
  · exact hcases (fun x y => x.lockRecord.isSome = x.locked → y.lockRecord.isSome = y.locked) h.lock
      (fun _ => id) b (hl.1 b)

/-- A change of records of the load table in their places that keeps their stages, identity and carries. -/
theorem State.loads_obeys {m : List Load} (hst : List.Forall₂ StageKept s.loads m)
    (hnum : m.map (·.number) = s.loads.map (·.number)) (hrec : s.recordsOk → ∀ l ∈ m, l.recordOk)
    (hcar : s.carriesOk → ∀ l ∈ m, l.base.carry < 1000000 ∧ l.eth.carry < 1000000)
    (hend : ∀ l ∈ s.loads, l.state = .ended → (∀ j, (s.injector j).strokeLoad ≠ some l.number) → l ∈ m) :
    Obeys c s { s with loads := m } :=
  { Obeys.refl c s with
    loadTable := fun h => ⟨by
      have := congrArg List.length hnum
      simp only [List.length_map] at this
      exact this ▸ h.1, by simpa only [hnum] using h.2⟩
    records := hrec
    carries := hcar
    queues := State.queuesOk_of_forall₂ (t := { s with loads := m }) (forall₂_imp (fun _ _ => StageKept.toStateKept) hst)
    members := fun _ => State.headerOk_stages (t := { s with loads := m }) hst ⟨rfl, rfl⟩
    valves := fun _ hv a => State.armValvesOk_stages (t := { s with loads := m }) hst rfl (hv a)
    ended := fun _ => hend
    settings := fun _ => { SettingsKept.refl c s with } }

end

end Sys2Proof.Machine
end

section
/-! PROOFS. Each command keeps what every command keeps: the requests that change a table, an arm, a lane, a channel or
the settings. -/

namespace Sys2Proof.Machine

variable (c : Instr) (s : State)

/-! ### The load table -/

theorem State.mem_of_load {s : State} {n : Nat} {l : Load} (h : s.load n = some l) : l ∈ s.loads ∧ l.number = n :=
  ⟨List.mem_of_find?_eq_some h, by simpa using List.find?_some h⟩

/-- A record of an arm's queue in a state other than AUTHORIZED is its head (R3). -/
theorem State.head_of_mem {s : State} (q : s.queuesOk) {l : Load} (hl : l ∈ s.loads)
    (hs : l.state ≠ .authorized) (he : l.state ≠ .ended) : s.head l.arm = some l := by
  have hmem : l ∈ s.armQueue l.arm := List.mem_filter.mpr ⟨hl, by simp [he]⟩
  rw [State.head, ← List.head?_filter]
  change (s.armQueue l.arm).head? = some l
  cases hq : s.armQueue l.arm with
  | nil => simp [hq] at hmem
  | cons x xs =>
    rw [hq] at hmem
    rcases List.mem_cons.mp hmem with rfl | hx
    · rfl
    · exact absurd ((q l.arm).2 l (by rw [hq]; exact hx)) hs

theorem State.authorizeAccept_obeys {q : AuthorizeArgs} (hr : authorizeRefusal q s = none) :
    Obeys c s (authorizeAccept q s) := by
  have hall := firstFailure_eq_none.mp hr
  have hdup : s.load q.load = none := by
    simpa using hall ((s.load q.load).isSome, .duplicate) (by simp)
  have hfull : s.loads.length < 32 := by
    simpa using hall (decide (32 ≤ s.loads.length), .tableFull) (by simp)
  have hqueue : (s.armQueue q.arm).length < 3 := by
    simpa using hall (decide (3 ≤ (s.armQueue q.arm).length), .queueFull) (by simp)
  have hloads : (authorizeAccept q s).loads = s.loads ++ [newLoad q s] := rfl
  have hold : ∀ p : Load → Bool, (∀ l, p l = true → l.state ≠ .authorized) → ∀ a,
      ((authorizeAccept q s).head a).any p = (s.head a).any p := fun p hp a => by
    rw [State.head, hloads, List.find?_append]
    cases h : s.head a with
    | some l => rw [State.head] at h; simp [h]
    | none =>
      rw [State.head] at h
      have hn : p (newLoad q s) = false := by
        by_contra hpn
        exact hp _ (by simpa using hpn) rfl
      rw [h, Option.none_or, List.find?_singleton]
      split
      · rw [Option.any_some, hn, Option.any_none]
      · rfl
  have hbody : ∀ a, ((authorizeAccept q s).head a).any Load.inBody = (s.head a).any Load.inBody :=
    hold _ fun l hl e => by simp [Load.inBody, e] at hl
  have hstate : ∀ p : LoadState → Bool, p .authorized = false → ∀ a,
      (authorizeAccept q s).headIs a p = s.headIs a p := fun p hp =>
    hold (fun l => p l.state) fun l hl e => by rw [e, hp] at hl; cases hl
  refine { Obeys.refl c s with
    loadTable := fun h => ?_
    recipeTable := fun h => ?_
    records := fun h l hl => ?_
    carries := fun h l hl => ?_
    queues := fun h a => ?_
    members := fun _ h => ?_
    valves := fun _ h a => ?_
    ended := fun _ l hl _ _ => ?_
    settings := fun _ => { SettingsKept.refl c s with } }
  · refine ⟨by rw [hloads, List.length_append]; exact hfull, ?_⟩
    rw [hloads, List.map_append, List.nodup_append]
    refine ⟨h.2, by simp, fun n hn m hm e => ?_⟩
    obtain ⟨l, hl, rfl⟩ := List.mem_map.mp hn
    have hm' : m = q.load := by simpa [newLoad] using hm
    have := List.find?_eq_none.mp hdup l hl
    simp [e, hm'] at this
  · have hcode : (authorizeAccept q s).recipes.map (·.code) = s.recipes.map (·.code) :=
      updFirst_map fun _ _ _ => rfl
    have hlen := congrArg List.length hcode
    simp only [List.length_map] at hlen
    exact ⟨hlen ▸ h.1, hcode ▸ h.2⟩
  · rw [hloads, List.mem_append, List.mem_singleton] at hl
    rcases hl with hl | rfl
    · exact h l hl
    · refine ⟨rfl, rfl, rfl, rfl, fun e he => ?_⟩
      obtain ⟨x, -, rfl⟩ := List.mem_map.mp he
      rfl
  · rw [hloads, List.mem_append, List.mem_singleton] at hl
    rcases hl with hl | rfl
    · exact h l hl
    · exact ⟨Nat.succ_pos 999999, Nat.succ_pos 999999⟩
  · have happ : (authorizeAccept q s).armQueue a = s.armQueue a ++ if q.arm = a then [newLoad q s] else [] := by
      rw [State.armQueue, hloads, List.filter_append]
      by_cases ha : q.arm = a <;> simp [State.armQueue, newLoad, ha]
    obtain ⟨hlen, hrest⟩ := h a
    rw [happ]
    split
    · rename_i ha
      subst ha
      refine ⟨by simpa using hqueue, fun l hl => ?_⟩
      rcases List.mem_append.mp ((List.drop_append (l₁ := s.armQueue q.arm) ▸ hl) ) with hl | hl
      · exact hrest l hl
      · rw [List.mem_singleton.mp (List.mem_of_mem_drop hl)]
        rfl
    · simpa using h a
  · refine ⟨fun a ha => ?_, fun p hp => ?_, h.2.2.1, h.2.2.2⟩
    · rw [hstate _ (by rfl)]
      exact h.1 a ha
    · rw [hbody]
      exact h.2.1 p hp
  · have := h a
    rw [hstate _ (by rfl), hbody]
    exact this
  · rw [hloads]
    exact List.mem_append_left _ hl

/-- The record drawn anew for another preset keeps its stage and identity. -/
theorem Load.redraw_stage (p va ea : Nat) (d : ArmDef) (r : Recipe) (l : Load) :
    StageKept l (l.redraw p va ea d r) := ⟨rfl, rfl, rfl⟩

/-- What an AMEND writes in a record (R20, R21). -/
def State.amended (p : Nat) (s : State) (l : Load) : Load :=
  if l.amendMode == .inBody then l.redraw p l.v l.eth.gross (s.defn l.arm) (s.recipeOf l)
  else l.redraw p 0 0 (s.defn l.arm) (s.recipeOf l)

theorem State.amendAccept_obeys {q : AmendArgs} (hr : amendRefusal q s = none) :
    Obeys c s (amendAccept q s) := by
  have hcases : ∀ P : Load → Prop, (∀ l va ea d r, P l → P (l.redraw q.preset va ea d r)) →
      ∀ l, P l → P (s.amended q.preset l) := fun P h l hl => by
    unfold State.amended
    split <;> exact h l _ _ _ _ hl
  have hstage : ∀ l, StageKept l (s.amended q.preset l) := fun l =>
    hcases (StageKept l) (fun m _ _ _ _ h => ⟨h.arm, h.state, h.phase⟩) l (.refl l)
  show Obeys c s { s with loads := updFirst (fun l => l.number == q.load) (s.amended q.preset) s.loads }
  refine State.loads_obeys c s (updFirst_forall₂ StageKept.refl fun l _ _ => hstage l)
    (updFirst_map fun l _ _ => hcases (fun m => m.number = l.number) (fun _ _ _ _ _ h => h) l rfl)
    (fun h l hl => ?_) (fun h l hl => ?_) fun l hl he _ => ?_
  · rcases mem_updFirst hl with hl | ⟨x, hx, -, rfl⟩
    · exact h l hl
    · exact hcases Load.recordOk (fun _ _ _ _ _ h => h) x (h x hx)
  · rcases mem_updFirst hl with hl | ⟨x, hx, -, rfl⟩
    · exact h l hl
    · exact hcases (fun l => l.base.carry < 1000000 ∧ l.eth.carry < 1000000) (fun _ _ _ _ _ h => h) x (h x hx)
  · rcases updFirst_cases (p := fun l : Load => l.number == q.load) (f := s.amended q.preset) (l := s.loads) with
      ⟨e, -⟩ | ⟨as, x, bs, hx, hbefore, hp, e⟩
    · rw [e]
      exact hl
    · have hload : s.load q.load = some x := by
        rw [State.load, hx, List.find?_append, List.find?_eq_none.mpr (by simpa using hbefore)]
        simp [hp]
      have hne : l ≠ x := by
        rintro rfl
        simp [amendRefusal, hload, Load.amendMode, he] at hr
      rw [hx] at hl
      rw [e]
      rcases (by simpa [hne] using hl : l ∈ as ∨ l ∈ bs) with hl | hl <;> simp [hl]

/-- A record leaves the table: an ENDED one, or one that is AUTHORIZED. -/
theorem State.dropLoad_obeys {n : Nat} {l : Load} (hl : s.load n = some l)
    (hs : l.state = .authorized ∨ l.state = .ended ∧ ∃ f, c = .retireLoad f) :
    Obeys c s { s with loads := dropFirst (fun x => x.number == n) s.loads } := by
  have hsub := dropFirst_sublist (fun x : Load => x.number == n) s.loads
  obtain ⟨as, bs, hsplit, hdrop⟩ : ∃ as bs, s.loads = as ++ l :: bs ∧
      dropFirst (fun x => x.number == n) s.loads = as ++ bs := by
    rw [State.load] at hl
    generalize s.loads = m at hl
    induction m with
    | nil => cases hl
    | cons x xs ih =>
      by_cases hx : (x.number == n) = true
      · simp only [List.find?_cons, hx, Option.some.injEq] at hl
        subst hl
        exact ⟨[], xs, rfl, by simp [dropFirst, hx]⟩
      · simp only [Bool.not_eq_true] at hx
        simp only [List.find?_cons, hx] at hl
        obtain ⟨as, bs, rfl, e⟩ := ih hl
        exact ⟨x :: as, bs, rfl, by simp [dropFirst, hx, e]⟩
  have hother : ∀ a (p : Load → Bool), s.queuesOk → (∀ x, p x = true → x.state ≠ .authorized) →
      ((as ++ bs).find? fun x => x.arm == a && x.state != .ended).any p = (s.head a).any p := fun a p q hp => by
    have hqueue := (q a).2
    rw [State.armQueue, hsplit, List.filter_append, List.filter_cons] at hqueue
    rw [State.head, hsplit, List.find?_append, List.find?_append, List.find?_cons]
    cases hfirst : as.find? (fun x => x.arm == a && x.state != .ended) with
    | some x => rfl
    | none =>
      cases hal : (l.arm == a && l.state != .ended) with
      | false => rfl
      | true =>
        have hauth : l.state = .authorized := by
          rcases hs with hs | ⟨hs, -⟩
          · exact hs
          · simp [hs] at hal
        have hpl : p l = false := by
          by_contra h
          exact hp l (by simpa using h) hauth
        have hnil : as.filter (fun x => x.arm == a && x.state != .ended) = [] := by
          simpa [List.filter_eq_nil_iff] using List.find?_eq_none.mp hfirst
        rw [hnil, hal] at hqueue
        simp only [Option.none_or, Option.any_some, hpl]
        cases hnext : bs.find? (fun x => x.arm == a && x.state != .ended) with
        | none => rfl
        | some y =>
          have hy : y.state = .authorized := hqueue y (by
            simpa using List.mem_filter.mpr ⟨List.mem_of_find?_eq_some hnext, List.find?_some hnext⟩)
          simp only [Option.any_some]
          by_contra h
          exact hp y (by simpa using h) hy
  rw [hdrop] at hsub ⊢
  have hmem : ∀ x ∈ as ++ bs, x ∈ s.loads := fun x hx => hsub.subset hx
  have hstate : s.queuesOk → ∀ p : LoadState → Bool, p .authorized = false → ∀ a,
      State.headIs { s with loads := as ++ bs } a p = s.headIs a p := fun q p hp a =>
    hother a (fun x => p x.state) q fun x hx e => by rw [e, hp] at hx; cases hx
  have hbody : s.queuesOk → ∀ a,
      (State.head { s with loads := as ++ bs } a).any Load.inBody = (s.head a).any Load.inBody := fun q a =>
    hother a Load.inBody q fun x hx e => by simp [Load.inBody, e] at hx
  refine { Obeys.refl c s with
    loadTable := fun h => ⟨hsub.length_le.trans h.1, h.2.sublist (hsub.map _)⟩
    records := fun h x hx => h x (hmem x hx)
    carries := fun h x hx => h x (hmem x hx)
    queues := State.queuesOk_of_loads_sublist (t := { s with loads := as ++ bs }) hsub
    members := fun q h => ⟨fun a ha => ?_, fun p hp => ?_, h.2.2.1, h.2.2.2⟩
    valves := fun q h a => ?_
    ended := fun hc x hx he _ => ?_
    settings := fun _ => { SettingsKept.refl c s with } }
  · rw [hstate q _ rfl]
    exact h.1 a ha
  · rw [hbody q]
    exact h.2.1 p hp
  · have := h a
    rw [hstate q _ rfl, hbody q]
    exact this
  · have hne : x ≠ l := by
      rintro rfl
      rcases hs with hs | ⟨-, f, hf⟩
      · rw [he] at hs; cases hs
      · exact hc f hf
    rw [hsplit] at hx
    simpa [hne] using hx

theorem stateRefusal_none {p : LoadState → Bool} {n : Nat} {s : State} (h : stateRefusal p n s = none) :
    ∃ l, s.load n = some l ∧ p l.state = true := by
  unfold stateRefusal at h
  cases hl : s.load n with
  | none => simp [hl] at h
  | some l => exact ⟨l, rfl, by simpa [hl] using h⟩

theorem State.cancelAccept_obeys {n : Nat} (hr : stateRefusal (· == .authorized) n s = none) :
    Obeys c s (cancelAccept n s) := by
  obtain ⟨l, hl, hs⟩ := stateRefusal_none hr
  simp only [cancelAccept, hl]
  exact (State.dropLoad_obeys c s hl (.inl (by simpa using hs))).trans_sound (State.lowerReference_sound _ _)

theorem State.retireAccept_obeys {n : Nat} (f : List Chars) (hr : stateRefusal (· == .ended) n s = none) :
    Obeys (.retireLoad f) s (retireAccept n s) := by
  obtain ⟨l, hl, hs⟩ := stateRefusal_none hr
  exact State.dropLoad_obeys _ s hl (.inr ⟨by simpa using hs, f, rfl⟩)

/-! ### The recipe table -/

/-- A change of the recipe table alone. -/
theorem State.recipes_obeys {m : List Recipe}
    (h : s.recipeTableOk → m.length ≤ 32 ∧ (m.map (·.code)).Pairwise (· < ·)) :
    Obeys c s { s with recipes := m } :=
  { Obeys.refl c s with recipeTable := h, settings := fun _ => { SettingsKept.refl c s with } }

theorem State.storeAccept_obeys {x : Recipe} (hr : storeRefusal x s = none) : Obeys c s (storeAccept x s) := by
  unfold storeRefusal at hr
  unfold storeAccept
  cases hx : s.recipe x.code with
  | none =>
    simp only [hx] at hr
    refine State.recipes_obeys c s fun h => ⟨?_, insertRecipe_pairwise h.2 fun r hr => ?_⟩
    · rw [insertRecipe_length]
      split at hr
      · cases hr
      · omega
    · have := List.find?_eq_none.mp hx r hr
      simpa using this
  | some r =>
    refine State.recipes_obeys c s fun h => ?_
    have hcode : (updFirst (fun r => r.code == x.code) (fun r => { x with rev := (r.rev + 1) % 65536 })
        s.recipes).map (·.code) = s.recipes.map (·.code) :=
      updFirst_map fun r _ hp => (by simpa using hp : r.code = x.code).symm
    rw [updFirst_length, hcode]
    exact h

theorem State.retireRecipeAccept_obeys (k : Nat) : Obeys c s (retireRecipeAccept k s) := by
  unfold retireRecipeAccept
  split
  · exact .refl c s
  · split
    · exact .refl c s
    · split
      · exact State.recipes_obeys c s fun h =>
          ⟨(dropFirst_sublist _ _).length_le.trans h.1, h.2.sublist ((dropFirst_sublist _ _).map _)⟩
      · refine State.recipes_obeys c s fun h => ?_
        have hcode : (updFirst (fun x => x.code == k) (fun x => { x with retiring := true }) s.recipes).map
            (·.code) = s.recipes.map (·.code) := updFirst_map fun _ _ _ => rfl
        rw [updFirst_length, hcode]
        exact h

/-! ### Arms and lanes -/

theorem State.setArmAccept_obeys (f : List Chars) (q : ArmArgs) : Obeys (.setArm f) s (setArmAccept q s) :=
  State.modArm_obeys _ s
    { valves := .inl ⟨rfl, rfl⟩
      permissive := fun _ => rfl
      lock := id
      defn := fun h => absurd rfl (h f)
      locked := fun _ _ h => ⟨h, rfl⟩ }

theorem State.decommissionAccept_obeys (f : List Chars) (a : ArmId) :
    Obeys (.decommissionArm f) s (decommissionAccept a s) :=
  State.modArm_obeys _ s
    { valves := .inr ⟨rfl, rfl⟩
      permissive := fun _ => rfl
      lock := id
      defn := fun _ h => absurd rfl (h f)
      locked := fun _ _ h => ⟨h, rfl⟩ }

theorem Arm.reset_obeys {c : Instr} (hc : (∃ f, c = .resetArm f) ∨ ∃ f, c = .resetLane f) (x : Arm) :
    ArmObeys c x x.reset where
  valves := .inl ⟨rfl, rfl⟩
  permissive := id
  lock := fun _ => rfl
  defn := fun _ _ => rfl
  locked := fun h g => by
    rcases hc with ⟨f, hf⟩ | ⟨f, hf⟩
    · exact absurd hf (h f)
    · exact absurd hf (g f)

theorem State.resetArmAccept_obeys (f : List Chars) (a : ArmId) : Obeys (.resetArm f) s (resetArmAccept a s) :=
  State.modArm_obeys _ s (Arm.reset_obeys (.inl ⟨f, rfl⟩) _)

theorem State.resetLaneAccept_obeys (f : List Chars) (n : LaneId) :
    Obeys (.resetLane f) s (resetLaneAccept n s) := by
  have hlane : Obeys (.resetLane f) s (s.modLane n fun x => { x with shut := false, shutCause := none }) :=
    State.modLane_obeys _ s (fun _ => rfl) fun h => absurd rfl (h f)
  exact (State.forAll_keeps (P := fun t => Obeys (.resetLane f) s t ∧ t.injectors = s.injectors) ⟨hlane, rfl⟩
    fun a _ t ht => ⟨ht.1.trans (State.modArm_obeys _ t (Arm.reset_obeys (.inr ⟨f, rfl⟩) _)) fun j => by
      rw [State.injector, State.injector, ht.2], ht.2⟩).1

/-- A change of an arm that leaves its definition, lock and valve commands. -/
theorem State.modArm_inputs_obeys {a : ArmId} {f : Arm → Arm}
    (hv : ∀ x, (f x).valveBase = x.valveBase ∧ (f x).valveEth = x.valveEth) (hd : ∀ x, (f x).defn = x.defn)
    (hl : ∀ x, (f x).locked = x.locked ∧ (f x).lockRecord = x.lockRecord)
    (hp : (s.arm a).permissive = (s.arm a).derivedPermissive →
      (f (s.arm a)).permissive = (f (s.arm a)).derivedPermissive) : Obeys c s (s.modArm a f) :=
  State.modArm_obeys c s
    { valves := .inl (hv _)
      permissive := hp
      lock := fun h => by rw [(hl _).1, (hl _).2]; exact h
      defn := fun _ _ => hd _
      locked := fun _ _ h => by rw [(hl _).1, (hl _).2]; exact ⟨h, rfl⟩ }

theorem State.getPermissivesAccept_obeys (a : ArmId) : Obeys c s (getPermissivesAccept a s) :=
  State.modArm_inputs_obeys c s (fun _ => ⟨rfl, rfl⟩) (fun _ => rfl) (fun _ => ⟨rfl, rfl⟩) id

/-! ### Meters and injectors -/

/-- R69(a): the metrology count goes up, or stands at its end. -/
theorem State.countMetrology_obeys (h : (∃ f, c = .setMeter f) ∨ ∃ f, c = .setInjector f) :
    Obeys c s s.countMetrology :=
  { Obeys.refl c s with
    settings := fun _ =>
      { SettingsKept.refl c s with
        metrology := fun h1 h2 => by
          rcases h with ⟨f, hf⟩ | ⟨f, hf⟩
          · exact absurd hf (h1 f)
          · exact absurd hf (h2 f)
        count := by
          show min 65535 s.metrology ≤ min 65535 (s.metrology + 1)
          omega } }

theorem Load.regross_stage (m : Meter) (r : Role) (l : Load) : StageKept l (l.regross m r) := by
  unfold Load.regross
  split
  · exact .refl l
  · cases r <;> exact ⟨rfl, rfl, rfl⟩

theorem Load.regross_kept (m : Meter) (r : Role) {l : Load} (hl : l.state ≠ .ended) :
    LoadKept l (l.regross m r) := by
  unfold Load.regross
  split
  · exact .refl l
  · cases r <;>
      exact .of_not_ended hl hl ⟨rfl, rfl, rfl, rfl, rfl, rfl, rfl, rfl⟩ ⟨rfl, rfl, rfl, rfl, rfl, rfl⟩
        ⟨rfl, rfl, rfl, rfl⟩ id id

/-- Operations that keep every record's stage and change nothing else. -/
theorem Sound.of_stages {s : State} {m : List Load} (hk : List.Forall₂ LoadKept s.loads m)
    (hst : List.Forall₂ StageKept s.loads m) : Sound s { s with loads := m } where
  toKept :=
    { Kept.refl s with
      loads := hk
      queues := State.queuesOk_of_forall₂ (t := { s with loads := m })
        (forall₂_imp (fun _ _ => StageKept.toStateKept) hst) }
  header := fun _ => State.headerOk_stages (t := { s with loads := m }) hst ⟨rfl, rfl⟩
  valves := fun _ _ => State.armValvesOk_stages (t := { s with loads := m }) hst rfl
  grants := id

/-- The records of an arm that are AUTHORIZED, worked out anew for a changed factor (R68(a)). -/
def State.regrossed (a : ArmId) (m : MeterId) (r : Role) (s : State) : State :=
  { s with loads := s.loads.map fun (l : Load) =>
      if l.arm == a && l.state == LoadState.authorized then l.regross (s.meter m) r else l }

theorem State.regrossed_sound (a : ArmId) (m : MeterId) (r : Role) : Sound s (s.regrossed a m r) := by
  refine Sound.of_stages (forall₂_map_self (fun l => ?_) _) (forall₂_map_self (fun l => ?_) _)
  · split
    · rename_i h
      simp only [Bool.and_eq_true, beq_iff_eq] at h
      exact Load.regross_kept _ _ (by rw [h.2]; simp)
    · exact .refl l
  · split
    · exact Load.regross_stage _ _ _
    · exact .refl l

theorem State.applyFactor_sound (m : MeterId) : Sound s (s.applyFactor m) := by
  unfold State.applyFactor
  split
  · exact .refl s
  · rename_i a r _
    have h2 : ∀ t : State, Sound t (t.modArm a fun x => { x with strayVol := t.strayVolume x }) := fun t =>
      State.modArm_sound (f := fun x => { x with strayVol := t.strayVolume x })
        (fun x => { ArmKept.refl x with }) fun _ => ⟨rfl, rfl⟩
    exact ((s.regrossed_sound a m r).trans (h2 _)).trans (State.watchLeak_sound _ _ _)

theorem State.setMeterAccept_obeys (f : List Chars) (q : MeterArgs) :
    Obeys (.setMeter f) s (setMeterAccept q s) := by
  have h1 : Obeys (.setMeter f) s (s.modMeter q.meter (Meter.write q)) :=
    { Obeys.refl _ s with
      settings := fun _ => { SettingsKept.refl _ s with meters := fun h => absurd rfl (h f) } }
  unfold setMeterAccept
  dsimp only
  have h2 : Obeys (.setMeter f) s (if q.metrological (s.meter q.meter) = true then
      (s.modMeter q.meter (Meter.write q)).countMetrology else s.modMeter q.meter (Meter.write q)) := by
    split
    · exact h1.trans (State.countMetrology_obeys _ _ (.inl ⟨f, rfl⟩)) fun _ => rfl
    · exact h1
  split
  · exact h2.trans_sound (State.applyFactor_sound _ _)
  · exact h2

theorem State.setInjectorAccept_obeys (f : List Chars) (q : InjectorArgs) :
    Obeys (.setInjector f) s (setInjectorAccept q s) := by
  have h1 : Obeys (.setInjector f) s (s.modInjector q.injector (Injector.write q)) :=
    { Obeys.refl _ s with
      strokes := fun h j => by
        rw [State.modInjector_injector]
        split
        · rename_i e; rw [e]; exact h q.injector
        · exact h j
      settings := fun _ => { SettingsKept.refl _ s with injectors := fun h => absurd rfl (h f) } }
  unfold setInjectorAccept
  dsimp only
  split
  · exact h1.trans (State.countMetrology_obeys _ _ (.inr ⟨f, rfl⟩)) (State.modInjector_strokeLoad s rfl)
  · exact h1

/-! ### Header, causes, attention and link -/

theorem State.setHeaderAccept_obeys (f : List Chars) (q : HeaderArgs) (hr : setHeaderRefusal q s = none) :
    Obeys (.setHeader f) s (setHeaderAccept q s) := by
  have hp : s.header.parts = [] := by
    unfold setHeaderRefusal at hr
    split at hr
    · rename_i h; simpa using h
    · cases hr
  have h1 : Obeys (.setHeader f) s (s.modHeader (Header.write q)) :=
    { Obeys.refl _ s with
      grants := fun _ => by
        constructor <;> simp [Header.write, hp]
      settings := fun _ => { SettingsKept.refl _ s with header := fun h => absurd rfl (h f) } }
  exact h1.trans_sound (State.evaluateQueue_admits _).toSound

/-- The first step of a parser that passes. -/
theorem except_bind_ok {α β : Type} {x : Except Code α} {g : α → Except Code β} {b : β}
    (h : (x >>= g) = .ok b) : ∃ a, x = .ok a ∧ g a = .ok b := by
  cases x with
  | error e => cases h
  | ok a => exact ⟨a, rfl, h⟩

theorem inRange_ok {b : Bool} {u : Unit} (h : inRange b = .ok u) : b = true := by
  unfold inRange at h
  split at h
  · assumption
  · cases h

/-- A SET_CAUSE that passes its range check names a class allowed for its code (R184). -/
theorem parseSetCause_allowed {ts : List Chars} {q : CauseArgs} (h : parseSetCause ts = .ok q) :
    q.cls ∈ q.cause.allowed := by
  obtain ⟨fs, -, h⟩ := except_bind_ok h
  obtain ⟨n, -, h⟩ := except_bind_ok h
  obtain ⟨cls, -, h⟩ := except_bind_ok h
  obtain ⟨k, -, h⟩ := except_bind_ok h
  obtain ⟨u, hu, h⟩ := except_bind_ok h
  cases h
  simpa using inRange_ok hu

theorem Cause.index_injective {k m : Cause} (h : k.index = m.index) : k = m := by
  cases k <;> cases m <;> first | rfl | (exact absurd h (by decide))

theorem State.setCauseAccept_obeys (f : List Chars) {q : CauseArgs} (hq : q.cls ∈ q.cause.allowed) :
    Obeys (.setCause f) s (setCauseAccept q s) :=
  { Obeys.refl _ s with
    causes := fun h k => by
      simp only [setCauseAccept, Fin.getElem_fin, Vector.getElem_set]
      split
      · rename_i e
        rw [← Cause.index_injective (Fin.ext e)]
        exact hq
      · exact h k
    settings := fun _ => { SettingsKept.refl _ s with causes := fun h => absurd rfl (h f) } }

theorem State.clearAttentionAccept_obeys (names : List Source) : Obeys c s (clearAttentionAccept names s) :=
  { Obeys.refl c s with settings := fun _ => { SettingsKept.refl c s with } }

theorem State.enableAccept_obeys (f : List Chars) (q : EnableArgs) :
    Obeys (.setAttentionEnable f) s (enableAccept q s) :=
  { Obeys.refl _ s with
    settings := fun _ => { SettingsKept.refl _ s with attention := fun h => absurd rfl (h f) } }

theorem State.setLinkAccept_obeys (f : List Chars) (n : Nat) : Obeys (.setLink f) s (setLinkAccept n s) :=
  { Obeys.refl _ s with
    settings := fun _ => { SettingsKept.refl _ s with timeout := fun h => absurd rfl (h f) } }

end Sys2Proof.Machine
end

section
/-! PROOFS. Each event keeps what every command keeps; the invariants of every step, what an ENDED record keeps, and
which requests change which setting. -/

namespace Sys2Proof.Machine

variable (c : Instr) (s : State)

/-! ### Meters (R79, R81, R87) -/

theorem State.takePulse_obeys (m : MeterId) : Obeys c s (s.takePulse m) := by
  have h1 : Obeys c s (s.modMeter m fun x => { x with window := sat (x.window + 1) }) :=
    State.modMeter_obeys c s fun _ => rfl
  unfold State.takePulse
  dsimp only
  split
  · exact h1
  · exact h1.trans_sound (State.boundPulse_sound _ _ _ _)

theorem State.takeSample_obeys (m : MeterId) (v : Int) : Obeys c s (s.takeSample m v) := by
  have h1 : Obeys c s (s.modMeter m fun x => { x with probe := .fault }) := State.modMeter_obeys c s fun _ => rfl
  unfold State.takeSample
  dsimp only
  split
  · exact State.modMeter_obeys c s fun _ => rfl
  · split
    · exact .refl c s
    · split
      · exact h1
      · split
        · exact h1.trans_sound (State.takeCause_sound _ _ _ _)
        · exact h1

theorem State.takeReading_obeys (m : MeterId) : Obeys c s (s.takeReading m) := by
  have h1 : Obeys c s (s.modMeter m Meter.read) := State.modMeter_obeys c s fun _ => rfl
  have h2 : ∀ b, Obeys c s ((s.modMeter m Meter.read).modMeter m fun x => { x with high := b }) := fun b =>
    h1.trans (State.modMeter_obeys c _ fun _ => rfl) fun _ => rfl
  unfold State.takeReading
  dsimp only
  split
  · exact h2 _
  · split
    · exact (h2 _).trans_sound (State.takeCause_sound _ _ _ _)
    · exact h2 _

/-! ### Permissive inputs and emergency stops (R179, R180, R195) -/

/-- An input that is not used does not count. -/
theorem permissiveSatisfied_set {d : ArmDef} {k : PermId} (hk : d.perms[k] = none) (levels : Vector Contact 8)
    (x : Contact) : permissiveSatisfied d (levels.set k x) = permissiveSatisfied d levels := by
  unfold permissiveSatisfied
  refine List.all_congr rfl fun i => ?_
  by_cases hi : k = i
  · subst hi
    rw [hk]
    rfl
  · have : k.val ≠ i.val := fun e => hi (Fin.ext e)
    simp only [Fin.getElem_fin, Vector.getElem_set_ne _ _ this]

theorem State.takePermissive_obeys (a : ArmId) (k : PermId) (level : Contact) :
    Obeys c s (s.takePermissive a k level) := by
  unfold State.takePermissive
  dsimp only
  split
  · exact .refl c s
  · have hlevels : ∀ g : Arm → Arm, (∀ x, (g x).valveBase = x.valveBase ∧ (g x).valveEth = x.valveEth) →
        (∀ x, (g x).defn = x.defn) → (∀ x, (g x).locked = x.locked ∧ (g x).lockRecord = x.lockRecord) →
        (∀ x, (g x).permissive = (g x).derivedPermissive) →
        Obeys c s ((s.modArm a fun x => { x with levels := x.levels.set k level }).modArm a g) := by
      intro g h1 h2 h3 h4
      have heq : (s.modArm a fun x => { x with levels := x.levels.set k level }).modArm a g =
          s.modArm a fun x => g { x with levels := x.levels.set k level } := by
        simp [State.modArm, State.arm]
      rw [heq]
      exact State.modArm_inputs_obeys c s (fun x => h1 _) (fun x => h2 _) (fun x => h3 _) fun _ => h4 _
    split
    · rename_i hu
      refine State.modArm_inputs_obeys c s (fun _ => ⟨rfl, rfl⟩) (fun _ => rfl) (fun _ => ⟨rfl, rfl⟩) fun h => ?_
      rw [h]
      simp only [Arm.derivedPermissive]
      cases hd : (s.arm a).defn with
      | none => rfl
      | some d =>
        simp only [hd, Option.bind_some] at hu
        simp only [Option.map_some, permissiveSatisfied_set hu]
    · split
      · exact hlevels _ (fun _ => ⟨rfl, rfl⟩) (fun _ => rfl) (fun _ => ⟨rfl, rfl⟩) fun _ => rfl
      · have h1 := hlevels (fun x => Arm.derivePermissive { x with latched := insertInput k x.latched })
          (fun _ => ⟨rfl, rfl⟩) (fun _ => rfl) (fun _ => ⟨rfl, rfl⟩) fun _ => rfl
        unfold State.dropPermissive
        dsimp only
        split
        · exact h1.trans_sound (State.takeCause_sound _ _ _ _)
        · exact h1

theorem State.modEmergency_obeys (n : LaneId) (b : Bool) :
    Obeys c s (s.modLane n fun x => { x with emergency := b }) :=
  State.modLane_obeys c s id fun _ h => ⟨h, rfl⟩

theorem State.takeEmergency_obeys (n : LaneId) : Obeys c s (s.takeEmergency n) := by
  unfold State.takeEmergency
  split
  · exact .refl c s
  · exact (State.modEmergency_obeys c s n true).trans_sound (State.emergencyTrip_sound _ _)

/-! ### Header pressure (R148) -/

theorem State.takePressure_obeys (level : Contact) : Obeys c s (s.takePressure level) := by
  unfold State.takePressure
  split
  · exact .refl c s
  · dsimp only
    generalize hlost : pressureLost s.header.pressureUsed level = lost
    have hstate : ∀ f : State → State, (∀ t, Sound t (f t)) →
        (s.header.lost = lost ∨ (∀ t, (f t).grantsOk)) →
        Obeys c s (f (s.modHeader fun h => { h with input := level, lost := lost })) := by
      intro f hf hg
      have hs := hf (s.modHeader fun h => { h with input := level, lost := lost })
      exact {
        pending := hs.pending
        loadTable := hs.toKept.loadTableOk (s := s.modHeader _)
        recipeTable := hs.toKept.recipeTableOk (s := s.modHeader _)
        records := hs.toKept.recordsOk (s := s.modHeader _)
        carries := hs.toKept.carriesOk (s := s.modHeader _)
        queues := hs.queues
        members := hs.header
        valves := fun q h a => hs.valves q a (State.modHeader_valves (h a))
        grants := fun h => by
          rcases hg with hg | hg
          · exact hs.grants (State.modQueue_grants rfl (by simp [Header.effCap, hg]) h)
          · exact hg _
        range := hs.toKept.valvesInRange (s := s.modHeader _)
        strokes := hs.toKept.strokesOk (s := s.modHeader _)
        permissives := hs.toKept.permissivesOk (s := s.modHeader _)
        causes := hs.toKept.causesOk (s := s.modHeader _)
        locks := hs.toKept.locksOk (s := s.modHeader _)
        ended := fun _ l hl he _ => hs.toKept.ended_mem (s := s.modHeader _) hl he
        settings := fun _ => { SettingsKept.of_kept c hs.toKept with } }
    split
    · rename_i h
      exact hstate id (fun t => .refl t) (.inl (by simpa using (beq_iff_eq.mp h).symm))
    · split
      · refine hstate _ State.losePressure_sound (.inr fun t => ?_)
        exact State.losePressure_grants t
      · refine hstate _ State.regainPressure_sound (.inr fun t => ?_)
        exact (State.evaluateQueue_admits _).grants (State.recomputeGrants_grantsOk _ _)

/-! ### Injectors (R168 to R170, R174) -/

theorem State.setProofIn_obeys (j : InjId) (x : Contact) :
    Obeys c s (s.modInjector j fun i => { i with proofIn := x }) :=
  State.modInjector_obeys c s rfl id

theorem State.endPulse_obeys (j : InjId) : Obeys c s (s.endPulse j) := (s.endPulse_sound j).obeys c

theorem State.takeSupply_obeys (j : InjId) (low : Bool) : Obeys c s (s.takeSupply j low) := by
  have h1 : Obeys c s (s.modInjector j fun i => { i with supplyLow := low }) := State.modInjector_obeys c s rfl id
  unfold State.takeSupply
  dsimp only
  split
  · exact .refl c s
  · split
    · exact h1
    · split
      · exact h1.trans_sound (State.takeCause_sound _ _ _ _)
      · exact h1

theorem Load.modEntry_stage (j : InjId) (f : AddEntry → AddEntry) (l : Load) : StageKept l (l.modEntry j f) :=
  ⟨rfl, rfl, rfl⟩

/-- The entry whose stroke has been proven (R169). -/
def AddEntry.prove (e : AddEntry) : AddEntry := { e with proven := e.proven + 1, consec := 0 }

/-- The entry whose stroke has been missed (R170). -/
def AddEntry.miss (e : AddEntry) : AddEntry := { e with missed := e.missed + 1, consec := e.consec + 1 }

/-- A stroke in flight ends: its entry is counted and its channel released. -/
theorem State.endStroke_obeys {j : InjId} {n : Nat} {f : AddEntry → AddEntry}
    (hn : (s.injector j).strokeLoad = some n) (hf : ∀ e, (f e).verdict = e.verdict) :
    Obeys c s (State.modInjector j Injector.release (s.modLoad n fun l => l.modEntry j f)) := by
  have h1 : Obeys c s (s.modLoad n fun l => l.modEntry j f) := by
    refine State.loads_obeys c s (updFirst_forall₂ StageKept.refl fun l _ _ => Load.modEntry_stage j f l)
      (updFirst_map fun _ _ _ => rfl) (fun h l hl => ?_) (fun h l hl => ?_) fun l hl _ hs => ?_
    · rcases mem_updFirst hl with hl | ⟨x, hx, -, rfl⟩
      · exact h l hl
      · obtain ⟨h1, h2, h3, h4, h5⟩ := h x hx
        exact ⟨h1, h2, h3, h4, mem_updFirst_entries hf h5⟩
    · rcases mem_updFirst hl with hl | ⟨x, hx, -, rfl⟩
      · exact h l hl
      · exact h x hx
    · refine mem_updFirst_of_not hl ?_
      rw [beq_eq_false_iff_ne]
      exact fun e => hs j (by rw [hn, e])
  have h2 : ∀ t : State, Obeys c t (t.modInjector j Injector.release) := fun t =>
    State.modInjector_obeys c t (f := Injector.release) rfl fun _ => ⟨rfl, rfl, rfl⟩
  exact h1.trans (h2 _) fun _ => rfl

theorem State.proveStroke_obeys (j : InjId) : Obeys c s (s.proveStroke j) := by
  unfold State.proveStroke
  split
  · exact .refl c s
  · rename_i n hn
    exact (State.endStroke_obeys c s (f := AddEntry.prove) hn fun _ => rfl).trans_sound (State.afterStroke_sound _ _)

theorem State.takeProof_obeys (j : InjId) : Obeys c s (s.takeProof j) := by
  unfold State.takeProof
  dsimp only
  split
  · exact .refl c s
  · split
    · exact State.setProofIn_obeys c s j .closed
    · exact (State.setProofIn_obeys c s j .closed).trans (State.proveStroke_obeys c _ j)
        (State.modInjector_strokeLoad s rfl)

theorem State.missStroke_obeys (j : InjId) : Obeys c s (s.missStroke j) := by
  unfold State.missStroke
  split
  · rename_i hn
    have h1 := State.endStroke_obeys c s (f := AddEntry.miss) hn fun _ => rfl
    exact (h1.trans_sound (State.raiseFail_sound _ _ _)).trans_sound (State.afterStroke_sound _ _)
  · exact .refl c s

/-! ### The calibration switch (R67) -/

theorem State.calibration_obeys (x : Contact) : Obeys c s { s with calibration := x } :=
  { Obeys.refl c s with settings := fun _ => { SettingsKept.refl c s with } }

/-! ### The link (R198, R199, R205) -/

theorem State.raiseLinkLost_sound (a : ArmId) : Sound s (s.raiseLinkLost a) := by
  unfold State.raiseLinkLost
  split
  · exact State.takeCause_sound _ _ _ _
  · exact .refl s

theorem State.expireLink_obeys : Obeys c s s.expireLink := by
  unfold State.expireLink
  split
  · exact (State.modLink_obeys c s (f := fun k => { k with timer := none }) rfl).trans_sound
      (State.forAllFree_sound fun a _ t => t.raiseLinkLost_sound a)
  · exact .refl c s

theorem State.dropFrame_obeys : Obeys c s s.dropFrame := State.modLink_obeys c s rfl

theorem State.takeInvalidFrame_obeys (frame : Chars) : Obeys c s (s.takeInvalidFrame frame) := by
  unfold State.takeInvalidFrame
  split
  · exact State.dropFrame_obeys c s
  · exact .refl c s

theorem State.startFrame_obeys : Obeys c s s.startFrame := by
  unfold State.startFrame
  split
  · exact State.modLink_obeys c s rfl
  · exact .refl c s

/-! ### Power (R29, R206 to R209) -/

/-- A state in which nothing flows: no arm is in the header and every valve command is 0. -/
structure State.Still (s : State) : Prop where
  parts  : s.header.parts = []
  queue  : s.header.queue = []
  valves : ∀ a, (s.arm a).valveBase = 0 ∧ (s.arm a).valveEth = 0

theorem State.Still.headerOk {s : State} (h : s.Still) : s.headerOk := by
  simp [State.headerOk, h.parts, h.queue]

theorem State.Still.valvesFollowLoad {s : State} (h : s.Still) : s.valvesFollowLoad := fun a =>
  State.armValvesOk_of_shut (h.valves a).1 (h.valves a).2

theorem State.Still.grantsOk {s : State} (h : s.Still) : s.grantsOk := by
  simp [State.grantsOk, h.parts]

theorem State.Still.valvesInRange {s : State} (h : s.Still) : s.valvesInRange := fun a => by
  simp [h.valves a]

section
variable (inp : Inputs)

theorem State.beginLive_arm (a : ArmId) : (s.beginLive inp).arm a = (s.arm a).begin inp.permissives[a] := by
  simp [State.beginLive, State.arm]

theorem State.beginLive_lane (n : LaneId) :
    (s.beginLive inp).lane n = { s.lane n with emergency := inp.emergency[n] } := by
  simp [State.beginLive, State.lane]

theorem State.beginLive_meter (m : MeterId) : (s.beginLive inp).meter m = (s.meter m).fresh := by
  simp [State.beginLive, State.meter]

theorem State.beginLive_injector (j : InjId) :
    (s.beginLive inp).injector j = (s.injector j).fresh inp.proof[j] inp.supplyLow[j] := by
  simp [State.beginLive, State.injector]

theorem State.beginLive_still : (s.beginLive inp).Still :=
  ⟨rfl, rfl, fun a => by rw [State.beginLive_arm]; exact ⟨rfl, rfl⟩⟩

theorem State.beginLive_obeys : Obeys c s (s.beginLive inp) where
  pending := rfl
  loadTable := id
  recipeTable := id
  records := id
  carries := id
  queues := id
  members := fun _ _ => (s.beginLive_still inp).headerOk
  valves := fun _ _ => (s.beginLive_still inp).valvesFollowLoad
  grants := fun _ => (s.beginLive_still inp).grantsOk
  range := fun _ => (s.beginLive_still inp).valvesInRange
  strokes := fun _ j => by rw [State.beginLive_injector]; exact ⟨rfl, rfl, rfl⟩
  permissives := fun _ a => by rw [State.beginLive_arm]; rfl
  causes := id
  locks := fun h =>
    ⟨fun a => by rw [State.beginLive_arm]; exact h.1 a, fun n => by rw [State.beginLive_lane]; exact h.2 n⟩
  ended := fun _ _ hl _ _ => hl
  settings := fun _ =>
    { SettingsKept.refl c s with
      meters := fun _ m => by rw [State.beginLive_meter]; rfl
      injectors := fun _ j => by rw [State.beginLive_injector]; rfl
      definitions := fun _ _ a => by rw [State.beginLive_arm]; rfl
      lanes := fun _ n h => by rw [State.beginLive_lane]; exact ⟨h, rfl⟩
      locks := fun _ _ a h => by rw [State.beginLive_arm]; exact ⟨h, rfl⟩ }

end

/-- What an interruption writes in a closed record before it is ended (R29, step 2). -/
def Load.interrupted (loses : Bool) (l : Load) : Load :=
  { l with flushInc := l.flushInc || loses, vc := l.v, share := 0 }

theorem State.interruptLoad_eq (l : Load) :
    s.interruptLoad l = s.concludeLoad .interrupted ((s.netCloseLoad false l).v - (s.netCloseLoad false l).preset * 1000)
      ((s.netCloseLoad false l).interrupted l.losesFlush) := rfl

/-- The record of a load in progress that power restore interrupts (R29). -/
theorem State.interruptLoad_kept {l : Load} (hl : l.state ≠ .ended) : LoadKept l (s.interruptLoad l) := by
  obtain ⟨hk, hs⟩ := s.netCloseLoad_kept false hl
  have hne : (s.netCloseLoad false l).state ≠ .ended := by rw [hs]; exact hl
  have hi : LoadKept (s.netCloseLoad false l) ((s.netCloseLoad false l).interrupted l.losesFlush) :=
    .of_plain hne hne ⟨rfl, rfl, rfl, rfl, rfl, rfl, rfl, rfl⟩ ⟨rfl, rfl, rfl, rfl, rfl, rfl⟩
      ⟨rfl, rfl, rfl, rfl⟩ ⟨rfl, rfl, rfl⟩
  rw [State.interruptLoad_eq]
  exact (hk.trans hi).trans (s.concludeLoad_kept _ _ hne)

theorem State.netCloseLoad_arm (live : Bool) (l : Load) : (s.netCloseLoad live l).arm = l.arm := by
  have h : ∀ (d : ArmDef) (r : Role) (k : Load), (s.netCloseRole d live r k).arm = k.arm := fun d r k => by
    unfold State.netCloseRole
    split
    · rfl
    · cases r <;> rfl
  exact (h _ _ _).trans (h _ _ _)

/-- A load is interrupted in a state in which nothing flows. -/
theorem State.interruptRecord_sound (n : Nat) {s : State} (h : s.Still) :
    Sound s (s.interruptRecord n) ∧ (s.interruptRecord n).Still := by
  unfold State.interruptRecord
  split
  · exact ⟨.refl s, h⟩
  · rename_i l hl
    split
    · rename_i hp
      have hne : l.state ≠ .ended := by
        intro e
        rw [e] at hp
        cases hp
      have hmod : s.modLoad n s.interruptLoad = s.modLoad n fun x => if x = l then s.interruptLoad x else x := by
        rw [State.modLoad, updFirst_congr fun x hx => ?_, State.modLoad]
        rw [State.load] at hl
        rw [Option.some.inj (hx.symm.trans hl), if_pos rfl]
      have hkept : List.Forall₂ LoadKept s.loads (s.modLoad n s.interruptLoad).loads := by
        rw [hmod]
        refine updFirst_forall₂ LoadKept.refl fun x _ _ => ?_
        split
        · rename_i e
          rw [e]
          exact s.interruptLoad_kept hne
        · exact .refl x
      have hstates : List.Forall₂ StateKept s.loads (s.modLoad n s.interruptLoad).loads :=
        updFirst_forall₂ (fun x => ⟨rfl, .inl rfl⟩) fun x _ _ => ⟨s.netCloseLoad_arm false x, .inr rfl⟩
      have hstill : (s.modLoad n s.interruptLoad).Still := ⟨h.parts, h.queue, h.valves⟩
      have hsound : Sound s (s.modLoad n s.interruptLoad) :=
        { toKept := { Kept.refl s with loads := hkept, queues := State.queuesOk_of_forall₂ hstates }
          header := fun _ _ => hstill.headerOk
          valves := fun _ a _ => hstill.valvesFollowLoad a
          grants := id }
      refine ⟨(hsound.trans (State.lowerReference_sound _ _)).trans (State.attend_sound _ _), ?_⟩
      exact ⟨by simpa using h.parts, by simpa using h.queue, fun a => by simpa using h.valves a⟩
    · exact ⟨.refl s, h⟩

/-- Every load in progress is interrupted, where nothing flows. -/
theorem State.interruptLoads_sound {s : State} (h : s.Still) : Sound s s.interruptLoads :=
  (State.forAll_keeps (P := fun t => Sound s t ∧ t.Still) ⟨.refl s, h⟩ fun n _ _ ht =>
    ⟨ht.1.trans (State.interruptRecord_sound n ht.2).1, (State.interruptRecord_sound n ht.2).2⟩).1

/-- Supply comes and goes. -/
theorem State.powered_obeys (b : Bool) : Obeys c s { s with powered := b } :=
  { Obeys.refl c s with settings := fun _ => { SettingsKept.refl c s with } }

/-- The live state begun anew, then changes that leave the strokes, of which none is in flight. -/
theorem Obeys.after_beginLive {c : Instr} {s t : State} {inp : Inputs} (h : Obeys c (s.beginLive inp) t) :
    Obeys c s t :=
  { pending := h.pending
    loadTable := h.loadTable
    recipeTable := h.recipeTable
    records := h.records
    carries := h.carries
    queues := h.queues
    members := fun q e => h.members q ((s.beginLive_obeys c inp).members q e)
    valves := fun q e => h.valves q ((s.beginLive_obeys c inp).valves q e)
    grants := h.grants ∘ (s.beginLive_obeys c inp).grants
    range := h.range ∘ (s.beginLive_obeys c inp).range
    strokes := h.strokes ∘ (s.beginLive_obeys c inp).strokes
    permissives := h.permissives ∘ (s.beginLive_obeys c inp).permissives
    causes := h.causes
    locks := h.locks ∘ (s.beginLive_obeys c inp).locks
    ended := fun hc l hl he _ => h.ended hc l hl he fun j => by
      rw [State.beginLive_injector]
      exact Option.some_ne_none _ |>.symm
    settings := fun hc => ((s.beginLive_obeys c inp).settings hc).trans (h.settings hc) }

theorem State.restorePower_obeys (inp : Inputs) : Obeys c s (s.restorePower inp) := by
  refine Obeys.after_beginLive (inp := inp) ?_
  have hstill : State.Still { s.beginLive inp with powered := true } :=
    ⟨(s.beginLive_still inp).parts, (s.beginLive_still inp).queue, (s.beginLive_still inp).valves⟩
  exact (((State.powered_obeys c (s.beginLive inp) true).trans_sound (State.interruptLoads_sound hstill)).trans_sound
    (State.attend_sound _ _)).trans_sound (State.readEmergencies_sound _)

theorem State.losePower_obeys : Obeys c s s.losePower :=
  Obeys.after_beginLive (State.powered_obeys c (s.beginLive s.inputs) false)

theorem State.restartModule_obeys (sw : Switches) : Obeys c s (s.restartModule sw) :=
  ((State.beginLive_obeys c s _).trans_sound (State.attend_sound _ _)).trans_sound (State.readEmergencies_sound _)

/-- Retained memory as FACTORY_CLEAR leaves it (R209, steps 2 and 3). -/
def State.cleared (s : State) : State :=
  { s with
    recipes := []
    arms := s.arms.map fun x => { x with defn := none, locked := false, lockRecord := none }
    lanes := s.lanes.map fun x => { x with shut := false, shutCause := none }
    metrology := min 65535 (s.metrology + 1)
    meters := Vector.replicate 16 factoryMeter
    injectors := s.injectors.map fun j =>
      { factoryInjector with proofIn := j.proofIn, supplyLow := j.supplyLow }
    header := { factoryHeader with input := s.header.input }
    causes := factoryCauses
    attention := { s.attention with enabled := Vector.replicate 8 true, master := true }
    link := { s.link with timeout := 0 } }

theorem State.clearFactory_eq :
    s.clearFactory = State.readEmergencies (State.attend .powerRestored (s.cleared.beginLive s.inputs)) := rfl

theorem factoryCauses_allowed (k : Cause) : factoryCauses[k.index] ∈ k.allowed := by
  cases k <;> decide

theorem State.cleared_arm (a : ArmId) :
    s.cleared.arm a = { s.arm a with defn := none, locked := false, lockRecord := none } := by
  simp [State.cleared, State.arm]

theorem State.cleared_lane (n : LaneId) : s.cleared.lane n = { s.lane n with shut := false, shutCause := none } := by
  simp [State.cleared, State.lane]

/-- FACTORY_CLEAR keeps what every command keeps, but for the settings. -/
theorem State.clearFactory_obeys (f : List Chars) : Obeys (.factoryClear f) s s.clearFactory := by
  have hlive := State.beginLive_obeys (.factoryClear f) s.cleared s.inputs
  have hstill := s.cleared.beginLive_still s.inputs
  have h1 : Obeys (.factoryClear f) s (s.cleared.beginLive s.inputs) :=
    { pending := rfl
      loadTable := id
      recipeTable := fun _ => ⟨Nat.zero_le _, .nil⟩
      records := id
      carries := id
      queues := id
      members := fun _ _ => hstill.headerOk
      valves := fun _ _ => hstill.valvesFollowLoad
      grants := fun _ => hstill.grantsOk
      range := fun _ => hstill.valvesInRange
      strokes := fun _ j => by rw [State.beginLive_injector]; exact ⟨rfl, rfl, rfl⟩
      permissives := fun _ a => by rw [State.beginLive_arm]; rfl
      causes := fun _ => factoryCauses_allowed
      locks := fun _ => ⟨fun a => by rw [State.beginLive_arm, State.cleared_arm]; rfl,
        fun n => by rw [State.beginLive_lane, State.cleared_lane]; rfl⟩
      ended := fun _ _ hl _ _ => hl
      settings := fun h => absurd rfl (h f) }
  rw [State.clearFactory_eq]
  exact (h1.trans_sound (State.attend_sound _ _)).trans_sound (State.readEmergencies_sound _)

/-! ### Requests that act on a load (R23 to R25) -/

theorem State.takeResume_grants {a : ArmId} {l : Load} {s : State} (h : s.grantsOk) : (s.takeResume a l).grantsOk := by
  have h1 := (s.resumed_sound a l).grants h
  rw [State.takeResume_eq]
  split
  · exact (State.joinQueue_admits a _).grants (State.modQueue_grants rfl rfl h1)
  · exact State.enterFlowing_grants h1

theorem State.resumeAccept_sound {n : Nat} {s : State} (hr : resumeRefusal n s = none) :
    Sound s (resumeAccept n s) := by
  unfold resumeRefusal at hr
  unfold resumeAccept
  cases hl : s.load n with
  | none => exact .refl s
  | some l =>
    simp only [hl, firstFailure_eq_none] at hr
    have hheld : l.state = .held := by simpa using hr (l.state != .held, .wrongState) (by simp)
    have hsound : s.queuesOk → Sound s (s.takeResume l.arm l) := fun q =>
      State.takeResume_sound (State.head_of_mem q (State.mem_of_load hl).1 (by simp [hheld]) (by simp [hheld])) hheld
    exact ⟨State.takeResume_kept _ _ _, fun q => (hsound q).header q, fun q => (hsound q).valves q,
      State.takeResume_grants⟩

/-! ### Frames that stop the link timer -/

/-- A request whose answer may stop the link timer. -/
theorem takeFrame_obeys {f : State → Reply} (h : Obeys c s (f s).state) : Obeys c s (s.takeFrame f) := by
  unfold State.takeFrame
  split
  · exact .refl c s
  · generalize f s = reply at h ⊢
    obtain ⟨t, r, stops⟩ := reply
    cases stops
    · rw [Reply.finish_running]
      exact h.answered r
    · rw [Reply.finish_stopped]
      exact h.answeredStopped r

theorem restartReply_obeys (f : List Chars) (sw : Switches) : Obeys c s (restartReply f sw s).state := by
  unfold restartReply
  split
  · exact .refl c s
  · split
    · exact .refl c s
    · exact State.restartModule_obeys c s sw

theorem factoryClearReply_obeys (f : List Chars) : Obeys (.factoryClear f) s (factoryClearReply f s).state := by
  unfold factoryClearReply
  split
  · exact .refl _ s
  · split
    · exact .refl _ s
    · split
      · exact .refl _ s
      · exact State.clearFactory_obeys s f

/-! ### Every command -/

/-- Every command answers a next state (R200 refuses a request with a response, not by stopping the block). -/
theorem exec_next : ∃ t, exec c s = .next t := by
  cases c <;> exact ⟨_, rfl⟩

/-- Every command keeps what every command keeps. -/
theorem exec_obeys {c : Instr} {s t : State} (h : exec c s = .next t) : Obeys c s t := by
  cases c with
  | authorize f => exact request_obeys h fun _ _ hr => State.authorizeAccept_obeys _ s hr
  | amend f => exact request_obeys h fun _ _ hr => State.amendAccept_obeys _ s hr
  | cancel f => exact request_obeys h fun _ _ hr => State.cancelAccept_obeys _ s hr
  | hold f => exact request_obeys h fun _ _ _ => (State.takeCause_sound _ _ _ s).obeys _
  | resume f => exact request_obeys h fun _ _ hr => (State.resumeAccept_sound hr).obeys _
  | endLoad f => exact request_obeys h fun _ _ _ => (State.takeCause_sound _ _ _ s).obeys _
  | getLoad f => exact request_obeys h fun _ _ _ => .refl _ s
  | retireLoad f => exact request_obeys h fun _ _ hr => State.retireAccept_obeys s f hr
  | listLoads f => exact report_obeys h
  | storeRecipe f => exact request_obeys h fun _ _ hr => State.storeAccept_obeys _ s hr
  | getRecipe f => exact request_obeys h fun _ _ _ => .refl _ s
  | retireRecipe f => exact request_obeys h fun _ _ _ => State.retireRecipeAccept_obeys _ s _
  | listRecipes f => exact report_obeys h
  | setArm f => exact request_obeys h fun _ _ _ => State.setArmAccept_obeys s f _
  | getArm f => exact request_obeys h fun _ _ _ => .refl _ s
  | decommissionArm f => exact request_obeys h fun _ _ _ => State.decommissionAccept_obeys s f _
  | getArmStatus f => exact report_obeys h
  | setMeter f => exact request_obeys h fun _ _ _ => State.setMeterAccept_obeys s f _
  | getMeter f => exact report_obeys h
  | setInjector f => exact request_obeys h fun _ _ _ => State.setInjectorAccept_obeys s f _
  | getInjector f => exact report_obeys h
  | setHeader f => exact request_obeys h fun _ _ hr => State.setHeaderAccept_obeys s f _ hr
  | getHeader f => exact report_obeys h
  | setCause f => exact request_obeys h fun _ hq _ => State.setCauseAccept_obeys s f (parseSetCause_allowed hq)
  | getCauses f => exact report_obeys h
  | getPermissives f => exact request_obeys h fun _ _ _ => State.getPermissivesAccept_obeys _ s _
  | resetArm f => exact request_obeys h fun _ _ _ => State.resetArmAccept_obeys s f _
  | resetLane f => exact request_obeys h fun _ _ _ => State.resetLaneAccept_obeys s f _
  | getAttention f => exact report_obeys h
  | clearAttention f => exact request_obeys h fun _ _ _ => State.clearAttentionAccept_obeys _ s _
  | setAttentionEnable f => exact request_obeys h fun _ _ _ => State.enableAccept_obeys s f _
  | setLink f => exact request_obeys h fun _ _ _ => State.setLinkAccept_obeys s f _
  | getIdent f => exact report_obeys h
  | restart f sw => exact event_obeys h fun _ => takeFrame_obeys _ s (restartReply_obeys _ s f sw)
  | factoryClear f => exact event_obeys h fun _ => takeFrame_obeys _ s (factoryClearReply_obeys s f)
  | unknownRequest ts =>
    refine event_obeys h fun _ => ?_
    split
    · exact takeFrame_obeys _ s (.refl _ s)
    · exact .refl _ s
  | invalidFrame fr => exact event_obeys h fun _ => State.takeInvalidFrame_obeys _ s fr
  | frameTimeout => exact event_obeys h fun _ => State.dropFrame_obeys _ s
  | startPress a => exact event_obeys h fun _ => (State.pressStart_sound a s).obeys _
  | stopPress a => exact event_obeys h fun _ => (State.pressStop_sound a s).obeys _
  | meterPulse m => exact event_obeys h fun _ => State.takePulse_obeys _ s m
  | temperatureSample m v => exact event_obeys h fun _ => State.takeSample_obeys _ s m v
  | flowReading m => exact event_obeys h fun _ => State.takeReading_obeys _ s m
  | rampTick a => exact event_obeys h fun _ => (State.tickRamp_sound a s).obeys _
  | permissiveInputChange a k x => exact event_obeys h fun _ => State.takePermissive_obeys _ s a k x
  | emergencyStopActive n => exact event_obeys h fun _ => State.takeEmergency_obeys _ s n
  | emergencyStopRelease n => exact event_obeys h fun _ => State.modEmergency_obeys _ s n false
  | headerPressureInputChange x => exact event_obeys h fun _ => State.takePressure_obeys _ s x
  | calibrationSwitchChange x =>
    exact event_obeys (f := fun t => { t with calibration := x }) h fun _ => State.calibration_obeys _ s x
  | proofArrival j => exact event_obeys h fun _ => State.takeProof_obeys _ s j
  | proofInputOpen j => exact event_obeys h fun _ => State.setProofIn_obeys _ s j .opened
  | supplyLowInputChange j b => exact event_obeys h fun _ => State.takeSupply_obeys _ s j b
  | pulseWidthExpiry j => exact event_obeys h fun _ => State.endPulse_obeys _ s j
  | proofTimerExpiry j => exact event_obeys h fun _ => State.missStroke_obeys _ s j
  | noFlowTimerExpiry a r => exact event_obeys h fun _ => (State.expireNoFlow_sound a r s).obeys _
  | settleTimerExpiry a => exact event_obeys h fun _ => (State.expireSettle_sound a s).obeys _
  | maximumSettleExpiry a => exact event_obeys h fun _ => (State.expireMaxSettle_sound a s).obeys _
  | linkTimeoutExpiry => exact event_obeys h fun _ => State.expireLink_obeys _ s
  | powerRestore inp =>
    injection h with h
    exact h ▸ State.restorePower_obeys _ s inp
  | admission => exact event_obeys h fun _ => (State.evaluateQueue_admits s).toSound.obeys _
  | loadEntersEnded a => exact event_obeys h fun _ => (State.tryEnd_sound a s).obeys _
  | frameStartCharacter => exact event_obeys h fun _ => State.startFrame_obeys _ s
  | frameLengthLimit => exact event_obeys h fun _ => State.dropFrame_obeys _ s
  | supplyLoss => exact event_obeys h fun _ => State.losePower_obeys _ s
  | responseSent => exact event_obeys h fun _ => State.modLink_obeys _ s (f := fun k => { k with sending := none }) rfl

/-- A step keeps what every command keeps of a state, whatever waits. -/
theorem step_obeys {s t : State} (h : step s = .next t) : t = s ∨ ∃ c rest, Obeys c { s with pending := rest } t := by
  unfold step at h
  split at h
  · injection h with h
    exact .inl h.symm
  · exact .inr ⟨_, _, exec_obeys h⟩

/-! ### The statements -/

/-- Settles O1: the definition of a step. -/
theorem stepTakesTheFront : Obligations.StepTakesTheFront := fun _ _ _ => rfl

/-- Settles O2: each command's next state, and what every command keeps. -/
theorem everyCommandGoesOn : Obligations.EveryCommandGoesOn := fun c s => by
  obtain ⟨t, ht⟩ := exec_next c s
  exact ⟨t, ht, (exec_obeys ht).pending⟩

/-- Settles O50, by what every command keeps. -/
theorem stepKeepsTheTables : Obligations.StepKeepsTheTables := fun s t hl hr hrec hc h => by
  rcases step_obeys h with rfl | ⟨c, rest, ho⟩
  · exact ⟨hl, hr, hrec, hc⟩
  · exact ⟨ho.loadTable hl, ho.recipeTable hr, ho.records hrec, ho.carries hc⟩

/-- Settles O51, by what every command keeps. -/
theorem stepKeepsTheArmQueues : Obligations.StepKeepsTheArmQueues := fun s t q h => by
  rcases step_obeys h with rfl | ⟨c, rest, ho⟩
  · exact q
  · exact ho.queues q

/-- Settles O52, by what every command keeps. -/
theorem stepKeepsTheHeaderMembers : Obligations.StepKeepsTheHeaderMembers := fun s t q hm h => by
  rcases step_obeys h with rfl | ⟨c, rest, ho⟩
  · exact hm
  · exact ho.members q hm

/-- Settles O53, by what every command keeps. -/
theorem stepKeepsTheValvesShut : Obligations.StepKeepsTheValvesShut := fun s t q hv h => by
  rcases step_obeys h with rfl | ⟨c, rest, ho⟩
  · exact hv
  · exact ho.valves q hv

/-- Settles O54, by what every command keeps. -/
theorem stepKeepsTheGrants : Obligations.StepKeepsTheGrants := fun s t hg h => by
  rcases step_obeys h with rfl | ⟨c, rest, ho⟩
  · exact hg
  · exact ho.grants hg

/-- Settles O55, by what every command keeps. -/
theorem stepKeepsTheFlags : Obligations.StepKeepsTheFlags := fun s t hv hs hp hc hl h => by
  rcases step_obeys h with rfl | ⟨c, rest, ho⟩
  · exact ⟨hv, hs, hp, hc, hl⟩
  · exact ⟨ho.range hv, ho.strokes hs, ho.permissives hp, ho.causes hc, ho.locks hl⟩

/-- Settles O56, by the empty tables and the factory records of the state after reset. -/
theorem resetMeetsTheInvariants : Obligations.ResetMeetsTheInvariants := by
  have harm : ∀ a, State.reset.arm a = factoryArm := fun a => by simp [State.reset, State.arm]
  have hlane : ∀ n, State.reset.lane n = factoryLane := fun n => by simp [State.reset, State.lane]
  have hinj : ∀ j, State.reset.injector j = factoryInjector := fun j => by simp [State.reset, State.injector]
  have hstill : State.reset.Still := ⟨rfl, rfl, fun a => by rw [harm]; exact ⟨rfl, rfl⟩⟩
  have hnone : ∀ l : Load, l ∉ State.reset.loads := fun _ => List.not_mem_nil
  have hqueue : ∀ a, State.reset.armQueue a = [] := fun _ => rfl
  refine ⟨⟨Nat.zero_le _, .nil⟩, ⟨Nat.zero_le _, .nil⟩, fun l h => absurd h (hnone l),
    fun l h => absurd h (hnone l), fun a => by simp [hqueue], hstill.headerOk, hstill.valvesFollowLoad, hstill.grantsOk,
    hstill.valvesInRange, fun j => ?_, fun a => ?_, factoryCauses_allowed, fun a => ?_, fun n => ?_⟩
  · rw [hinj]; exact ⟨rfl, rfl, rfl⟩
  · rw [harm]; rfl
  · rw [harm]; rfl
  · rw [hlane]; rfl

/-- Settles O57, by what every command keeps. -/
theorem endedRecordsStand : Obligations.EndedRecordsStand := fun _ _ _ l h hc hl he hs =>
  (exec_obeys h).ended hc l hl he hs

/-- Settles O58, by what every command keeps. -/
theorem onlyTheirRequestsChangeSettings : Obligations.OnlyTheirRequestsChangeSettings := fun _ _ _ h hc =>
  have k := (exec_obeys h).settings hc
  ⟨k.meters, k.injectors, k.metrology, k.count, k.header, k.causes, k.attention, k.timeout, k.definitions, k.lanes,
    k.locks⟩

end Sys2Proof.Machine
end

section
/-! PROOFS. How every request is answered: what is lost, what a refusal leaves, and the link timer (R199, R200, R205);
the events of the port. -/

namespace Sys2Proof.Machine

/-! ### The reply to a request -/

/-- The reply that refuses a request. -/
def refusal (s : State) (code : Code) : Reply := { state := s, response := .no code, stopsTimer := false }

/-- What holds of the reply to a request, whatever it is. -/
structure ReplyOk (c : Instr) (s : State) (r : Reply) : Prop where
  refused : ∀ code, r.response = .no code → r = refusal s code
  formed  : ∀ code, formError c = some code → r = refusal s code
  running : (∀ f sw, c ≠ .restart f sw) → (∀ f, c ≠ .factoryClear f) → r.stopsTimer = false

/-- The refusal code of a parser that fails. -/
def codeOf {α : Type} : Except Code α → Option Code
  | .error e => some e
  | .ok _ => none

theorem eq_error_of_codeOf {α : Type} {x : Except Code α} {code : Code} (h : codeOf x = some code) :
    x = .error code := by
  cases x with
  | error e => exact congrArg Except.error (Option.some.inj h)
  | ok a => cases h

theorem answerRequest_replyOk {α : Type} {parse : Except Code α} {refuse : α → State → Option Code}
    {accept : α → State → State} {answer : α → State → State → Response} {c : Instr} {s : State}
    (hform : formError c = codeOf parse)
    (hno : ∀ q code, answer q s (accept q s) = .no code → accept q s = s) :
    ReplyOk c s (answerRequest parse refuse accept answer s) := by
  unfold answerRequest
  cases parse with
  | error e =>
    refine ⟨fun code h => ?_, fun code h => ?_, fun _ _ => rfl⟩
    · cases h; rfl
    · cases hform.symm.trans h; rfl
  | ok q =>
    refine ⟨fun code h => ?_, fun code h => (nomatch hform.symm.trans h), fun _ _ => ?_⟩ <;> dsimp only at *
    · split at h
      · cases h; rfl
      · simp only at h ⊢
        have hsame := hno q code h
        rw [hsame] at h ⊢
        simp only [refusal, h]
    · split <;> rfl

theorem formError_nothing (f : List Chars) : codeOf (parseNothing f) = if f.isEmpty then none else some .format := by
  unfold parseNothing
  cases f <;> rfl

theorem restartReply_ok (f : List Chars) (sw : Switches) (s : State) :
    ReplyOk (.restart f sw) s (restartReply f sw s) := by
  have hform : formError (.restart f sw) = if f.isEmpty then none else some .format := formError_nothing f
  unfold restartReply
  cases f with
  | cons t ts =>
    refine ⟨fun code h => by cases h; rfl, fun code h => ?_, fun h => absurd rfl (h _ _)⟩
    cases hform.symm.trans h
    rfl
  | nil =>
    refine ⟨fun code h => ?_, fun code h => (nomatch hform.symm.trans h), fun h => absurd rfl (h _ _)⟩
    simp only [List.isEmpty_nil, Bool.not_true, Bool.false_eq_true, if_false] at h ⊢
    split at h <;> cases h
    simp only [refusal, *, if_true]

theorem factoryClearReply_ok (f : List Chars) (s : State) :
    ReplyOk (.factoryClear f) s (factoryClearReply f s) := by
  have hform : formError (.factoryClear f) = if f.isEmpty then none else some .format := formError_nothing f
  unfold factoryClearReply
  cases f with
  | cons t ts =>
    refine ⟨fun code h => by cases h; rfl, fun code h => ?_, fun _ h => absurd rfl (h _)⟩
    cases hform.symm.trans h
    rfl
  | nil =>
    refine ⟨fun code h => ?_, fun code h => (nomatch hform.symm.trans h), fun _ h => absurd rfl (h _)⟩
    simp only [List.isEmpty_nil, Bool.not_true, Bool.false_eq_true, if_false] at h ⊢
    split at h
    · cases h
      simp only [refusal, *, if_true]
    · split at h <;> cases h
      simp only [refusal, *, if_true]
      rfl

/-- How each request is taken: as a frame, with a reply that is as `ReplyOk` says. -/
theorem exec_request {c : Instr} (hc : (requestTokens c).isSome = true) (hu : ∀ ts, c ≠ .unknownRequest ts) :
    ∃ f : State → Reply, (∀ s, exec c s = event (State.takeFrame f) s) ∧ ∀ s, ReplyOk c s (f s) := by
  cases c with
  | restart f sw =>
    exact ⟨restartReply f sw, fun _ => rfl, fun s => restartReply_ok f sw s⟩
  | factoryClear f => exact ⟨factoryClearReply f, fun _ => rfl, fun s => factoryClearReply_ok f s⟩
  | unknownRequest ts => exact absurd rfl (hu ts)
  | invalidFrame | frameTimeout | startPress | stopPress | meterPulse | temperatureSample | flowReading | rampTick
  | permissiveInputChange | emergencyStopActive | emergencyStopRelease | headerPressureInputChange
  | calibrationSwitchChange | proofArrival | proofInputOpen | supplyLowInputChange | pulseWidthExpiry
  | proofTimerExpiry | noFlowTimerExpiry | settleTimerExpiry | maximumSettleExpiry | linkTimeoutExpiry
  | powerRestore | admission | loadEntersEnded | frameStartCharacter | frameLengthLimit | supplyLoss
  | responseSent => cases hc
  | getLoad f => exact ⟨_, fun _ => rfl, fun s => answerRequest_replyOk rfl fun _ _ _ => rfl⟩
  | getRecipe f => exact ⟨_, fun _ => rfl, fun s => answerRequest_replyOk rfl fun _ _ _ => rfl⟩
  | getArm f => exact ⟨_, fun _ => rfl, fun s => answerRequest_replyOk rfl fun _ _ _ => rfl⟩
  | retireRecipe f =>
    refine ⟨_, fun _ => rfl, fun s => answerRequest_replyOk rfl fun q code h => ?_⟩
    unfold retireRecipeAnswer at h
    split at h <;> cases h
  | _ => exact ⟨_, fun _ => rfl, fun s => answerRequest_replyOk rfl fun _ _ h => nomatch h⟩

/-! ### The statements about every request -/

theorem takeFrame_ready {f : State → Reply} {s : State} (hs : s.ready) :
    event (State.takeFrame f) s = .next ((f s).finish s.link.address) := by
  rw [event_powered hs.1, State.takeFrame, hs.2]
  rfl

theorem takeFrame_lost {f : State → Reply} {s : State} (h : s.powered = false ∨ s.link.sending.isSome = true) :
    event (State.takeFrame f) s = .next s := by
  cases hp : s.powered with
  | false => exact event_unpowered hp
  | true =>
    have hsend : s.link.sending.isSome = true := h.resolve_left (by simp [hp])
    rw [event_powered hp, State.takeFrame, if_pos hsend]

theorem isUnknown_eq (ts : List Chars) : isUnknown ts = unknownWord ts := by
  cases ts <;> rfl

theorem exec_unknown {ts : List Chars} {s : State} (h : isUnknown ts = true) :
    exec (.unknownRequest ts) s = event (State.takeFrame unknownReply) s := by
  show event (fun t => if isUnknown ts then t.takeFrame unknownReply else t) s = _
  simp only [h, if_true]

/-- Without supply no command but the return of supply does anything (R206). -/
theorem exec_unpowered {c : Instr} {s : State} (hc : ∀ inp, c ≠ .powerRestore inp) (h : s.powered = false) :
    exec c s = .next s := by
  cases c with
  | powerRestore inp => exact absurd rfl (hc inp)
  | calibrationSwitchChange x => exact event_unpowered (f := fun t => { t with calibration := x }) h
  | _ => exact event_unpowered h

/-- Settles O3: without supply an event does nothing, and a frame is not taken while a response is sent. -/
theorem commandsCanBeLost : Obligations.CommandsCanBeLost := by
  intro c s hc h
  rcases h with h | ⟨hr, hsend⟩
  · exact exec_unpowered hc h
  · by_cases hu : ∀ ts, c ≠ .unknownRequest ts
    · obtain ⟨f, hf, -⟩ := exec_request hr hu
      rw [hf]
      exact takeFrame_lost (.inr hsend)
    · obtain ⟨ts, rfl⟩ : ∃ ts, c = .unknownRequest ts := by simpa using hu
      cases hp : s.powered with
      | false => exact exec_unpowered hc hp
      | true =>
        have hlost : s.takeFrame unknownReply = s := if_pos hsend
        refine (event_powered hp).trans (congrArg _ ?_)
        simp only [hlost, ite_self]

/-- Settles O6, by the reply to each request. -/
theorem validFrameIsAnsweredOnce : Obligations.ValidFrameIsAnsweredOnce := by
  intro c s t hs hc hr hf h
  have hreply : ∃ r : Reply, r.stopsTimer = false ∧ t = r.finish s.link.address := by
    by_cases hu : ∀ ts, c ≠ .unknownRequest ts
    · obtain ⟨f, he, hok⟩ := exec_request hc.1 hu
      rw [he, takeFrame_ready hs] at h
      injection h with h
      exact ⟨f s, (hok s).running hr hf, h.symm⟩
    · obtain ⟨ts, rfl⟩ : ∃ ts, c = .unknownRequest ts := by simpa using hu
      have hunknown : isUnknown ts = true := by rw [isUnknown_eq]; exact hc.2 ts rfl
      rw [exec_unknown hunknown, takeFrame_ready hs] at h
      injection h with h
      exact ⟨unknownReply s, rfl, h.symm⟩
  obtain ⟨r, hstop, rfl⟩ := hreply
  refine ⟨⟨r.response, rfl⟩, rfl, ?_⟩
  simp [Reply.finish, timerAfter, hstop]

/-- Settles O7, by the reply to each request: one answered NO, and one with a field that fails its form or range. -/
theorem refusedRequestChangesNothing : Obligations.RefusedRequestChangesNothing := by
  refine ⟨fun c s t a code hs hc h hno => ?_, fun c s code hs hform => ?_⟩
  · have hfinish : ∀ r : Reply, t = r.finish s.link.address → (∀ k, r.response = .no k → r = refusal s k) →
        t = s.answered s (.no code) := by
      rintro r rfl hr
      have hresponse : r.response = .no code := by
        simpa [Reply.finish] using congrArg Sending.response (Option.some.inj hno)
      rw [hr code hresponse]
      exact Reply.finish_running s s _
    by_cases hu : ∀ ts, c ≠ .unknownRequest ts
    · obtain ⟨f, he, hok⟩ := exec_request hc hu
      rw [he, takeFrame_ready hs] at h
      injection h with h
      exact hfinish (f s) h.symm (hok s).refused
    · obtain ⟨ts, rfl⟩ : ∃ ts, c = .unknownRequest ts := by simpa using hu
      cases hk : isUnknown ts with
      | true =>
        rw [exec_unknown hk, takeFrame_ready hs] at h
        injection h with h
        exact hfinish (unknownReply s) h.symm fun k hr => by cases hr; rfl
      | false =>
        have hsame : exec (.unknownRequest ts) s = .next s :=
          (event_powered hs.1).trans (by simp [hk])
        rw [hsame] at h
        injection h with h
        rw [← h, hs.2] at hno
        cases hno
  · have hc : (requestTokens c).isSome = true := by
      cases c <;> first | rfl | cases hform
    have hu : ∀ ts, c ≠ .unknownRequest ts := by
      rintro ts rfl
      cases hform
    obtain ⟨f, he, hok⟩ := exec_request hc hu
    rw [he, takeFrame_ready hs, (hok s).formed code hform]
    exact congrArg _ (Reply.finish_running s s _)

/-- Settles O8, by the definitions of the port's events. -/
theorem portEventsTouchThePortAlone : Obligations.PortEventsTouchThePortAlone := by
  intro s hp
  refine ⟨fun ts hsend hts => ?_, fun frame hsend hframe => ?_, event_powered hp, event_powered hp, ?_,
    event_powered hp⟩
  · rw [exec_unknown (by rw [isUnknown_eq, hts]), takeFrame_ready ⟨hp, hsend⟩]
    exact congrArg _ (Reply.finish_running s s _)
  · refine (event_powered hp).trans (congrArg _ ?_)
    rw [State.takeInvalidFrame, if_pos (by simp [State.receiverOn, hsend, hframe])]
    rfl
  · refine (event_powered hp).trans (congrArg _ ?_)
    simp only [State.startFrame, State.receiverOn, Option.isNone_iff_eq_none]
    rfl

end Sys2Proof.Machine
end

section
/-! PROOFS. The requests of loads, recipes, arms, lanes, channels and settings, each with its refusals and its whole
effect. -/

namespace Sys2Proof.Machine

/-! ### What the checks read -/

theorem State.armLaneShut_eq_true {s : State} {a : ArmId} :
    s.armLaneShut a = true ↔ ∃ n, s.laneOf a = some n ∧ (s.lane n).shut = true := by
  simp [State.armLaneShut, Option.any_eq_true]

theorem State.armLaneShut_eq_false {s : State} {a : ArmId} :
    s.armLaneShut a = false ↔ ∀ n, s.laneOf a = some n → (s.lane n).shut = false := by
  cases h : s.laneOf a <;> simp [State.armLaneShut, h]

theorem State.headIs_eq_false {s : State} {a : ArmId} {p : LoadState → Bool} :
    s.headIs a p = false ↔ ∀ l, s.head a = some l → p l.state = false := by
  cases h : s.head a <;> simp [State.headIs, h]

theorem State.running_isSome_eq_false {s : State} {a : ArmId} :
    (s.running a).isSome = false ↔ s.running a = none := by
  cases s.running a <;> simp

theorem stateRefusal_of {p : LoadState → Bool} {n : Nat} {l : Load} {s : State} (h : s.load n = some l) :
    stateRefusal p n s = if p l.state then none else some .wrongState := by
  simp only [stateRefusal, h]

theorem State.defn_of {s : State} {a : ArmId} {d : ArmDef} (h : (s.arm a).defn = some d) : s.defn a = d := by
  simp [State.defn, h]

theorem State.laneOf_of {s : State} {a : ArmId} {d : ArmDef} (h : (s.arm a).defn = some d) :
    s.laneOf a = some d.lane := by
  simp [State.laneOf, h]

/-! ### AUTHORIZE and AMEND -/

/-- Settles O11, check by check. -/
theorem authorizeRefusalsInOrder : Obligations.AuthorizeRefusalsInOrder := by
  intro f q code s hs hq h
  refine request_refused hs hq ?_
  unfold authorizeRefusal
  cases hd : (s.arm q.arm).defn with
  | none =>
    simp only [hd] at h
    simp [State.commissioned, hd, h]
  | some d =>
    have hlane : s.armLaneShut q.arm = (s.lane d.lane).shut := by simp [State.armLaneShut, State.laneOf_of hd]
    have hcomm : s.commissioned q.arm = true := by simp [State.commissioned, hd]
    simp only [hd] at h
    simp only [hlane, hcomm, State.defn_of hd, firstFailure_cons, firstFailure_nil, Bool.not_true, Bool.false_eq_true,
      if_false]
    split at h
    · simp [*]
    · rename_i hlocked
      simp only [hlocked, Bool.false_eq_true, if_false]
      split at h
      · simp [*]
      · rename_i hshut
        simp only [hshut, Bool.false_eq_true, if_false]
        cases hr : s.recipe q.recipe with
        | none =>
          simp only [hr] at h
          simp [h]
        | some r =>
          simp only [hr] at h
          simp only [Option.isNone_some, Option.getD_some, Bool.false_eq_true, if_false]
          have hnoInj : (!r.adds.all fun x => d.injectors.any fun j => (s.injector j).addId == x.id) = true ↔
              ∃ x ∈ r.adds, ∀ j ∈ d.injectors, (s.injector j).addId ≠ x.id := by
            simp
          have hdup : (s.load q.load).isSome = true ↔ ∃ l ∈ s.loads, l.number = q.load := by
            simp [State.load, List.find?_isSome]
          simp only [Bool.and_eq_true, decide_eq_true_eq, Option.isNone_iff_eq_none, hnoInj, hdup]
          split at h
          · simp [*]
          · rw [if_neg ‹_›]
            split at h
            · rw [if_pos ‹_›, h]
            · rw [if_neg ‹_›]
              split at h
              · rw [if_pos ‹_›, h]
              · rw [if_neg ‹_›]
                split at h
                · rw [if_pos ‹_›, h]
                · rw [if_neg ‹_›]
                  split at h
                  · rw [if_pos ‹_›, h]
                  · rw [if_neg ‹_›]
                    split at h
                    · rw [if_pos ‹_›, h]
                    · rw [if_neg ‹_›]
                      split at h
                      · rw [if_pos ‹_›, h]
                      · rw [if_neg ‹_›, if_pos h.1, h.2]

/-- An update of the record with a number that agrees on that record is the same. -/
theorem State.modLoad_congr {s : State} {n : Nat} {l : Load} {f g : Load → Load} (hl : s.load n = some l)
    (h : f l = g l) : updFirst (fun x => x.number == n) f s.loads = updFirst (fun x => x.number == n) g s.loads :=
  updFirst_congr fun x hx => by rw [Option.some.inj (hx.symm.trans hl), h]

/-- The record with a number after an update that keeps its number. -/
theorem State.load_updFirst {s : State} {n : Nat} {l : Load} {f : Load → Load} (hl : s.load n = some l)
    (hf : ∀ x, (f x).number = x.number) :
    (updFirst (fun x => x.number == n) f s.loads).find? (fun x => x.number == n) = some (f l) := by
  rw [find?_updFirst fun x _ hx => by rw [hf]; exact hx]
  change (s.load n).map f = _
  rw [hl, Option.map_some]

/-- An AMEND whose checks pass draws the line of its record anew from an anchor. -/
theorem amend_accepted {f : List Chars} {q : AmendArgs} {l : Load} {s : State} {va ea : Nat} (hs : s.ready)
    (hq : parseAmend f = .ok q) (hl : s.load q.load = some l) (hr : amendRefusal q s = none)
    (ha : s.amended q.preset l = l.redraw q.preset va ea (s.defn l.arm) (s.recipeOf l)) :
    exec (.amend f) s = .next (s.answered
      { s with loads := updFirst (fun x => x.number == q.load) (fun x =>
          x.redraw q.preset va ea (s.defn l.arm) (s.recipeOf l)) s.loads }
      (.ok [field "LOAD" (numText q.load), field "PRESET" (numText q.preset),
        field "AMENDS" (numText (min 255 (l.amends + 1)))])) := by
  have hloads := State.modLoad_congr (f := s.amended q.preset)
    (g := fun x => x.redraw q.preset va ea (s.defn l.arm) (s.recipeOf l)) hl ha
  have hafter : amendAccept q s = { s with loads := updFirst (fun x => x.number == q.load) (fun x =>
      x.redraw q.preset va ea (s.defn l.arm) (s.recipeOf l)) s.loads } := by
    rw [← hloads]
    rfl
  refine (request_accepted hs hq hr).trans ?_
  rw [hafter]
  have hload := State.load_updFirst (f := fun x => x.redraw q.preset va ea (s.defn l.arm) (s.recipeOf l)) hl
    fun _ => rfl
  simp only [amendAnswer, State.load, hload, Option.map_some, Option.getD_some]
  rfl

/-- Settles O12: by the way R19(d) takes the record's state and phase. -/
theorem amendRedrawsTheLine : Obligations.AmendRedrawsTheLine := by
  intro f q l s hs hq hl
  refine ⟨fun hstate hpreset hshare => ?_, fun hstate hlate hdelivered hshare => ?_, fun hstate => ?_⟩
  · have hmode : l.amendMode = .beforeFlow := by
      rcases hstate with h | ⟨h, h'⟩ <;> simp [Load.amendMode, *]
    refine amend_accepted hs hq hl ?_ (by simp [State.amended, hmode])
    simp only [amendRefusal, hl, hmode, amendEarlyRefusal, firstFailure_cons, firstFailure_nil, decide_eq_true_eq]
    rw [if_neg (by omega), if_neg (by omega)]
  · have hmode : l.amendMode = .inBody := by
      rcases hstate with ⟨h, h'⟩ | ⟨h | h, h'⟩ <;> simp [Load.amendMode, *]
    refine amend_accepted hs hq hl ?_ (by simp [State.amended, hmode])
    simp only [amendRefusal, hl, hmode, amendBodyRefusal, firstFailure_cons, firstFailure_nil, decide_eq_true_eq]
    rw [if_neg (by omega), if_neg (by omega), if_neg (by omega)]
  · have hmode : l.amendMode = .late := by
      rcases hstate with ⟨h | h, h'⟩ | h | h | h <;> simp [Load.amendMode, *]
    exact request_refused hs hq (by simp [amendRefusal, hl, hmode])

/-! ### CANCEL and RETIRE_LOAD -/

/-- Settles O13, by the state of the record. -/
theorem recordsLeaveTheTable : Obligations.RecordsLeaveTheTable := by
  intro f n l s hs hn hl
  have hcancel : ∀ t, l.state = .authorized →
      State.lowerReference l.recipe { s with loads := dropFirst (fun x => x.number == n) s.loads } = t →
      exec (.cancel f) s = .next (s.answered t (.ok [field "LOAD" (numText n)])) := by
    intro t hstate ht
    refine (request_accepted hs hn (by simp [stateRefusal_of hl, hstate])).trans ?_
    simp only [cancelAccept, hl, ht]
    rfl
  have hrecipe : ∀ m : List Load, State.recipe { s with loads := m } l.recipe = s.recipe l.recipe := fun _ => rfl
  refine ⟨fun r hstate hr hret hrefs => hcancel _ hstate ?_, fun r hstate hr hkeep => hcancel _ hstate ?_,
    fun hstate => request_refused hs hn (by simp [stateRefusal_of hl, hstate]), fun hstate => ?_,
    fun hstate => request_refused hs hn (by simp [stateRefusal_of hl, hstate])⟩
  · simp only [State.lowerReference, hrecipe, hr, hret, hrefs]
    rfl
  · have hno : (r.retiring && r.refs - 1 == 0) = false := by
      rcases hkeep with h | h
      · simp [h]
      · simp; omega
    simp only [State.lowerReference, hrecipe, hr, hno]
    rfl
  · refine (request_accepted hs hn (by simp [stateRefusal_of hl, hstate])).trans ?_
    rw [← dropFirst_length hl]
    rfl

/-! ### Recipes -/

theorem parseStore_fresh {f : List Chars} {x : Recipe} (h : parseStore f = .ok x) :
    x.rev = 0 ∧ x.refs = 0 ∧ x.retiring = false := by
  unfold parseStore at h
  iterate 18 obtain ⟨_, -, h⟩ := except_bind_ok h
  cases h
  exact ⟨rfl, rfl, rfl⟩

end Sys2Proof.Machine
end

section
/-! PROOFS. Recipes, arms, lanes, channels and settings: the requests and recorded inputs, each with its whole effect. -/

namespace Sys2Proof.Machine

/-! ### Recipes -/

/-- The recipe with a code after an update that keeps the code. -/
theorem State.recipe_updFirst {s : State} {c : Nat} {r : Recipe} {f : Recipe → Recipe} (hr : s.recipe c = some r)
    (hf : ∀ x, x.code = c → (f x).code = c) :
    (updFirst (fun x => x.code == c) f s.recipes).find? (fun x => x.code == c) = some (f r) := by
  rw [find?_updFirst fun x _ hx => by simpa using hf x (by simpa using hx)]
  change (s.recipe c).map f = _
  rw [hr, Option.map_some]

/-- Settles O21, by whether the code is new. -/
theorem storeRecipeWritesTheTable : Obligations.StoreRecipeWritesTheTable := by
  intro f x s hs hx
  obtain ⟨hrev, hrefs, hret⟩ := parseStore_fresh hx
  refine ⟨hrev, hrefs, hret, fun hnew hroom => ?_, fun r hr hact hunused => ?_⟩
  · have hafter : storeAccept x s = { s with recipes := insertRecipe x s.recipes } := by
      simp only [storeAccept, hnew]
    have hfind : (insertRecipe x s.recipes).find? (fun r => r.code == x.code) = some x := by
      have hnone : ∀ r ∈ s.recipes, (r.code == x.code) = false := by
        simpa using List.find?_eq_none.mp hnew
      generalize s.recipes = m at hnone
      induction m with
      | nil => simp [insertRecipe]
      | cons y ys ih =>
        simp only [List.forall_mem_cons] at hnone
        simp only [insertRecipe]
        split
        · simp
        · rw [List.find?_cons, hnone.1]
          exact ih hnone.2
    refine (request_accepted hs hx ?_).trans ?_
    · simp only [storeRefusal, hnew]
      rw [if_neg (by omega)]
    · rw [hafter]
      simp only [storeAnswer, State.recipe, hfind, insertRecipe_length, Option.map_some, Option.getD_some]
  · have hcongr : updFirst (fun y => y.code == x.code) (fun r => { x with rev := (r.rev + 1) % 65536 }) s.recipes =
        updFirst (fun y => y.code == x.code) (fun _ => { x with rev := (r.rev + 1) % 65536 }) s.recipes :=
      updFirst_congr fun y hy => by rw [Option.some.inj (hy.symm.trans hr)]
    have hafter : storeAccept x s = { s with
        recipes := updFirst (fun y => y.code == x.code) (fun _ => { x with rev := (r.rev + 1) % 65536 }) s.recipes } := by
      simp only [storeAccept, hr, State.modRecipe, hcongr]
    have hfind := State.recipe_updFirst (f := fun _ => { x with rev := (r.rev + 1) % 65536 }) hr fun _ _ => rfl
    refine (request_accepted hs hx (by simp [storeRefusal, hr, hact, hunused])).trans ?_
    rw [hafter]
    simp only [storeAnswer, State.recipe, hfind, updFirst_length, Option.map_some, Option.getD_some]

/-- Settles O22, by the state and count of the recipe. -/
theorem retireRecipeWithdraws : Obligations.RetireRecipeWithdraws := by
  intro f c r s hs hc hr
  have hpass : recipeRefusal c s = none := by simp [recipeRefusal, hr]
  have haccept : ∀ t, retireRecipeAccept c s = t → ∀ x, retireRecipeAnswer c s t = x →
      exec (.retireRecipe f) s = .next (s.answered t x) := by
    rintro t rfl x rfl
    exact request_accepted hs hc hpass
  refine ⟨fun hact hunused hnodup => haccept _ ?_ _ ?_, fun hact hused => haccept _ ?_ _ ?_,
    fun hret => haccept _ ?_ _ ?_⟩
  · simp only [retireRecipeAccept, hr, hact, hunused]
    rfl
  · have hgone : (dropFirst (fun x => x.code == c) s.recipes).find? (fun x => x.code == c) = none := by
      rw [State.recipe] at hr
      generalize s.recipes = m at hr hnodup
      induction m with
      | nil => cases hr
      | cons y ys ih =>
        rw [List.map_cons, List.nodup_cons] at hnodup
        by_cases hy : (y.code == c) = true
        · simp only [dropFirst, hy, if_true, List.find?_eq_none]
          intro z hz hzc
          rw [beq_iff_eq] at hy hzc
          exact hnodup.1 (by rw [hy, ← hzc]; exact List.mem_map_of_mem hz)
        · simp only [Bool.not_eq_true] at hy
          simp only [List.find?_cons, hy] at hr
          simp only [dropFirst, hy, List.find?_cons, Bool.false_eq_true, if_false]
          exact ih hr hnodup.2
    simp only [retireRecipeAnswer, State.recipe, hgone, dropFirst_length hr]
  · simp only [retireRecipeAccept, hr, hact, Bool.false_eq_true, if_false]
    rw [if_neg (by omega)]
    rfl
  · have hfind := State.recipe_updFirst (f := fun x => { x with retiring := true }) hr fun _ h => h
    simp only [retireRecipeAnswer, State.recipe, hfind]
  · simp only [retireRecipeAccept, hr, hret, if_true]
  · simp only [retireRecipeAnswer, hr]

/-! ### Arms and lanes -/

/-- Settles O23: the checks of R54 pass, and R55 writes the arm. -/
theorem setArmCommissions : Obligations.SetArmCommissions := by
  intro f q s hs hq hlane hnew hqueue hmeters hbound
  refine request_accepted hs hq ?_
  have hlaneShut : s.armLaneShut q.arm = false := State.armLaneShut_eq_false.mpr hlane
  have helse : s.boundElsewhere q.arm q.defn = false := by
    simp only [State.boundElsewhere, List.any_eq_false, Bool.and_eq_true, bne_iff_ne, Option.any_eq_true,
      Bool.or_eq_true, List.any_eq_true, not_and, not_exists, not_or]
    intro b _ hb e he
    obtain ⟨h1, h2⟩ := hbound b e hb he
    refine ⟨fun m hm hme => ?_, fun j hj hje => h2 j hj (by simpa using hje)⟩
    have hm' : q.defn.baseMeter = m ∨ q.defn.ethMeter = some m := by
      simpa [ArmDef.meters, eq_comm] using hm
    obtain ⟨h3, h4⟩ := h1 m hm'
    rcases (by simpa [ArmDef.meters] using hme : m = e.baseMeter ∨ e.ethMeter = some m) with h | h
    · exact h3 h.symm
    · exact h4 h
  simp [setArmRefusal, hlaneShut, hnew, hqueue, hmeters, helse]

/-- Settles O24, by whether the arm is commissioned and free. -/
theorem decommissionWithdraws : Obligations.DecommissionWithdraws := by
  intro f a s hs ha
  refine ⟨fun hd => request_refused hs ha ?_, fun hd hqueue => request_refused hs ha ?_,
    fun hd hqueue => request_accepted hs ha ?_⟩
  · simp [decommissionRefusal, State.commissioned, hd]
  · simp [decommissionRefusal, State.commissioned, hd, hqueue]
  · simp [decommissionRefusal, State.commissioned, hd, hqueue]

/-- Settles O25, by the lane and the head load. -/
theorem resetArmClearsTheLock : Obligations.ResetArmClearsTheLock := by
  intro f a s hs ha
  refine ⟨fun hshut => request_refused hs ha ?_, fun hshut hsettle => request_refused hs ha ?_,
    fun hshut hsettle => (request_accepted hs ha ?_).trans ?_⟩
  · simp [resetArmRefusal, State.armLaneShut_eq_true.mpr hshut]
  · simp [resetArmRefusal, State.armLaneShut_eq_false.mpr hshut, hsettle]
  · simp [resetArmRefusal, State.armLaneShut_eq_false.mpr hshut, hsettle]
  · have hcond : ((resetArmAccept a s).condition a).text =
        if s.headIs a LoadState.inProgress then "ACTIVE".toList else "IDLE".toList := by
      have hlock : ((resetArmAccept a s).arm a).locked = false := by
        rw [resetArmAccept, State.modArm_arm_same]
        rfl
      have hhead : (resetArmAccept a s).headIs a LoadState.inProgress = s.headIs a LoadState.inProgress := rfl
      rw [State.condition, hlock, hhead]
      cases s.headIs a LoadState.inProgress <;> rfl
    rw [resetArmAnswer, hcond]
    rfl

/-- An operation run over arms, each one once, that changes each arm it is run on. -/
theorem forAll_modArm_arm {l : List ArmId} (f : Arm → Arm) (hnd : l.Nodup) (s : State) (b : ArmId) :
    (State.forAll l (fun a t => t.modArm a f) s).arm b = if b ∈ l then f (s.arm b) else s.arm b := by
  induction l generalizing s with
  | nil => rfl
  | cons a as ih =>
    rw [List.nodup_cons] at hnd
    rw [State.forAll_cons, ih hnd.2, State.modArm_arm]
    by_cases hb : b = a
    · subst hb
      simp [hnd.1]
    · simp [hb]

theorem State.laneArms_nodup (s : State) (n : LaneId) : (s.laneArms n).Nodup :=
  (List.nodup_finRange 8).filter _

theorem State.mem_laneArms {s : State} {n : LaneId} {a : ArmId} : a ∈ s.laneArms n ↔ s.laneOf a = some n := by
  simp [State.laneArms, allArms]

/-- Settles O26: the lane, then each of its arms once. -/
theorem resetLaneReturnsToService : Obligations.ResetLaneReturnsToService := by
  intro f n s hs hn
  refine ⟨fun he => request_refused hs hn (by simp [resetLaneRefusal, he]), fun he harms => ?_⟩
  have hpass : resetLaneRefusal n s = none := by
    refine firstFailure_eq_none.mpr fun x hx => ?_
    simp only [List.mem_cons, List.not_mem_nil, or_false] at hx
    rcases hx with rfl | rfl | rfl
    · exact he
    · simp only [List.any_eq_false, State.mem_laneArms, decide_eq_true_eq, not_lt]
      exact fun a ha => (harms a ha).1
    · simp only [List.any_eq_false, State.mem_laneArms, Bool.not_eq_true]
      exact fun a ha => (harms a ha).2
  have hrest : resetLaneAccept n s =
      { s with arms := (resetLaneAccept n s).arms, lanes := (resetLaneAccept n s).lanes } :=
    State.forAll_keeps (P := fun t => t = { s with arms := t.arms, lanes := t.lanes }) rfl fun a _ t ht => by
      conv_lhs => rw [ht]
      rfl
  have hlanes : (resetLaneAccept n s).lanes =
      (s.modLane n fun x => { x with shut := false, shutCause := none }).lanes :=
    State.forAll_keeps (P := fun t => t.lanes = _) rfl fun _ _ _ ht => ht
  have hlane : ∀ k, (resetLaneAccept n s).lane k =
      (s.modLane n fun x => { x with shut := false, shutCause := none }).lane k := fun k => by
    rw [State.lane, hlanes]
    rfl
  have harm : ∀ a, (resetLaneAccept n s).arm a =
      if s.laneOf a = some n then (s.arm a).reset else s.arm a := fun a => by
    rw [resetLaneAccept, forAll_modArm_arm _ (s.laneArms_nodup n)]
    simp only [State.mem_laneArms]
    rfl
  refine ⟨resetLaneAccept n s, ?_, hrest, ?_, fun k hk => ?_, fun a ha => ?_, fun a ha => ?_⟩
  · refine (request_accepted hs hn hpass).trans ?_
    rw [resetLaneAnswer, hlane, State.modLane_lane_same]
    rfl
  · rw [hlane, State.modLane_lane_same]
  · rw [hlane, State.modLane_lane, if_neg hk]
  · rw [harm, if_pos ha]
    rfl
  · rw [harm, if_neg ha]

/-! ### Presses that are ignored -/

/-- Settles O16, by the state of the head load. -/
theorem pressesCanBeIgnored : Obligations.PressesCanBeIgnored := by
  intro a s hp
  refine ⟨fun h => (event_powered hp).trans (congrArg _ ?_), fun h => (event_powered hp).trans (congrArg _ ?_)⟩
  · have hno : s.headIs a LoadState.stoppable = false := State.headIs_eq_false.mpr fun l hl => by
      rcases h l hl with e | e | e <;> rw [e] <;> rfl
    simp [State.pressStop, hno]
  · unfold State.pressStart
    split
    · rfl
    · rename_i l hl
      obtain ⟨hheld, hauth⟩ := h l hl
      split
      · rename_i e
        have hno : s.startOk a = false := by
          rcases hauth e with h1 | h1 | h1
          · simp [State.startOk, h1]
          · simp [State.startOk, h1]
          · simp [State.startOk, State.armLaneShut_eq_true.mpr h1]
        simp [hno]
      · rename_i e
        exact absurd e hheld
      all_goals rfl

/-! ### The entry to ENDED -/

/-- What a record that enters ENDED is, for the record it is (R14, R15). -/
theorem State.modHead_congr {s : State} {a : ArmId} {l : Load} {f g : Load → Load} (hl : s.head a = some l)
    (h : f l = g l) : s.modHead a f = s.modHead a g := by
  rw [State.modHead, State.modHead, updFirst_congr fun x hx => ?_]
  rw [Option.some.inj (hx.symm.trans hl), h]

/-- Settles O20: both reports stand, so the head load enters ENDED. -/
theorem settledLoadEnters : Obligations.SettledLoadEnters := by
  intro a l s hp hl hstate hsettled hreported
  have hdue : s.endDue a = true := by
    simp [State.endDue, State.headIs_of_head hl, hstate, hsettled, hreported]
  refine ⟨s.enterEnded a l, (event_powered hp).trans (congrArg _ ?_), ?_, ?_, ?_, fun b hb => ?_, ?_⟩
  · simp only [State.tryEnd, hl, hdue, if_true]
  · rw [State.enterEnded, State.attend_loads, State.lowerReference_loads, State.modArm_loads]
    exact updFirst_congr fun x hx => by
      obtain rfl : x = l := Option.some.inj (hx.symm.trans hl)
      rfl
  · rw [State.enterEnded, State.attend_pending_flag]
    rfl
  · simp [State.enterEnded]
  · simp [State.enterEnded, State.modArm_arm_ne hb]
  · rw [State.enterEnded, State.lowerReference_eq]
    exact ⟨rfl, rfl, rfl, rfl, rfl, rfl⟩

/-! ### Meters and injectors -/

/-- Settles O27: the checks of R67. -/
theorem metrologyNeedsTheKey : Obligations.MetrologyNeedsTheKey := by
  intro f q s hs hq m hchange
  have hmetro : q.metrological (s.meter q.meter) = true := by
    have hch : ∀ (new : Option Nat) (old : Nat), (∃ k, new = some k ∧ k ≠ old) → changes new old = true := by
      rintro _ old ⟨k, rfl, hk⟩
      simpa [changes] using hk
    simp only [MeterArgs.metrological, MeterArgs.changesFactor, Bool.or_eq_true]
    rcases hchange with h | h | h
    · exact .inl (.inl (hch _ _ h))
    · exact .inl (.inr (hch _ _ h))
    · exact .inr (hch _ _ h)
  refine ⟨fun hcal => request_refused hs hq ?_, fun hcal a r hbind hbusy => request_refused hs hq ?_⟩
  · simp [setMeterRefusal, metrologyRefusal, hmetro, hcal]
  · simp [setMeterRefusal, metrologyRefusal, hmetro, hcal, hbind, State.boundInUse, State.running_isSome, hbusy]

theorem changes_eq (new : Option Nat) (old : Nat) : changes new old = (new.getD old != old) := by
  cases new <;> simp [changes]

/-- Settles O36: the checks of R161, and what R162 writes. -/
theorem setInjectorWritesTheChannel : Obligations.SetInjectorWritesTheChannel := by
  intro f q s hs hq j metro count
  have hmetro : q.metrological j = metro := changes_eq _ _
  have hrefusal : q.width.getD j.width ≤ q.proofTo.getD j.proofTo → setInjectorRefusal q s =
      match metrologyRefusal metro (s.injectorArm q.injector) s with
      | some c => some c
      | none => if changes q.addId j.addId && (s.injectorArm q.injector).any (fun a => !(s.armQueue a).isEmpty)
          then some .inUse else none := fun h => by
    rw [← hmetro]
    exact if_neg (Nat.not_lt.mpr h)
  refine ⟨fun h => request_refused hs hq (if_pos h), fun h hm hcal => request_refused hs hq ?_,
    fun h hm hbind => (request_accepted hs hq ?_).trans ?_⟩
  · rw [hrefusal h, hm]
    simp [metrologyRefusal, hcal]
  · rw [hrefusal h, hbind]
    rcases hm with hm | hm <;> simp [metrologyRefusal, hm, State.boundInUse]
  · have hafter : setInjectorAccept q s = { s.modInjector q.injector (Injector.write q) with metrology := count } := by
      unfold setInjectorAccept
      dsimp only
      rw [show q.metrological (s.injector q.injector) = metro from hmetro]
      simp only [count]
      split <;> rfl
    have hanswer : setInjectorAnswer q s { s.modInjector q.injector (Injector.write q) with metrology := count } =
        .ok [field "CHANNEL" (injText q.injector),
          field "METRO" (if metro then "YES".toList else "NO".toList), field "COUNT" (numText count)] := by
      rw [setInjectorAnswer, show q.metrological (s.injector q.injector) = metro from hmetro]
      rfl
    rw [hafter, hanswer]
    have hwrite : s.modInjector q.injector (Injector.write q) = s.modInjector q.injector (fun x =>
        { x with
          addId := q.addId.getD j.addId, stroke := q.stroke.getD j.stroke, width := q.width.getD j.width
          proofTo := q.proofTo.getD j.proofTo, supplyUsed := q.supply.getD j.supplyUsed }) := rfl
    rw [hwrite]

theorem State.modInjector_of_eq {s : State} {j : InjId} {f : Injector → Injector}
    (h : f (s.injector j) = s.injector j) : s.modInjector j f = s := by
  rw [State.modInjector, h, State.injector]
  simp

/-- Settles O37, by the state of the channel. -/
theorem channelInputsAreRecorded : Obligations.ChannelInputsAreRecorded := by
  intro j s hp
  refine ⟨fun hf ht => (event_powered hp).trans (congrArg _ ?_), event_powered hp,
    fun hi => (event_powered hp).trans (congrArg _ ?_), fun low hlow => (event_powered hp).trans (congrArg _ ?_)⟩
  · simp [State.endPulse, hf, ht]
  · unfold State.takeProof
    dsimp only
    split
    · rename_i hclosed
      exact (State.modInjector_of_eq (by rw [← beq_iff_eq.mp hclosed])).symm
    · rw [if_pos (by simp [hi])]
  · unfold State.takeSupply
    dsimp only
    split
    · rename_i hsame
      exact (State.modInjector_of_eq (by rw [← beq_iff_eq.mp hsame])).symm
    · split
      · rfl
      · rename_i a hserved
        have harm : s.injectorArm j = some a := (Option.filter_eq_some_iff.mp hserved).1
        have hno : (low && ((s.modInjector j fun x => { x with supplyLow := low }).injector j).supplyUsed &&
            (s.modInjector j fun x => { x with supplyLow := low }).headIs a LoadState.preSettling) = false := by
          rw [State.modInjector_injector_same]
          rcases hlow with h | h | h | h
          · simp [h]
          · simp [h]
          · rw [harm] at h; cases h
          · rw [show (s.modInjector j fun x => { x with supplyLow := low }).headIs a LoadState.preSettling = false from
              h a harm, Bool.and_false]
        rw [hno]
        rfl

end Sys2Proof.Machine
end

section
/-! PROOFS. The manual's arithmetic (O60), and the settings requests with the inputs that are recorded alone (O42, O39). -/

namespace Sys2Proof.Machine

/-! ### Arithmetic -/

theorem roundHalfUp_bounds (n : Int) {d : Int} (hd : 0 < d) :
    2 * d * roundHalfUp n d ≤ 2 * n + d ∧ 2 * n + d < 2 * d * (roundHalfUp n d + 1) := by
  have hdiv := Int.mul_ediv_add_emod (2 * n + d) (2 * d)
  have hlow := Int.emod_nonneg (2 * n + d) (by omega : 2 * d ≠ 0)
  have hhigh := Int.emod_lt_of_pos (2 * n + d) (by omega : 0 < 2 * d)
  unfold roundHalfUp
  rw [mul_add, mul_one]
  omega

theorem vcf_bounds {beta : Nat} {t : Int} (hb : beta ≤ 2000) (hlow : -400 ≤ t) (hhigh : t ≤ 600) :
    910000 ≤ vcf beta t ∧ vcf beta t ≤ 1110000 := by
  have hmin : -1100000 ≤ (beta : Int) * (t - 150) := by nlinarith
  have hmax : (beta : Int) * (t - 150) ≤ 900000 := by nlinarith
  unfold vcf roundHalfUp
  generalize (beta : Int) * (t - 150) = x at hmin hmax
  omega

theorem valveCommand_full {q fs : Nat} (hfs : 0 < fs) (hq : fs ≤ q) : valveCommand q fs = 4095 := by
  refine min_eq_left ?_
  unfold roundHalfUpNat
  rw [Nat.le_div_iff_mul_le (by omega)]
  have := Nat.mul_le_mul_right 4095 hq
  omega

theorem ethTarget_le {preset r : Nat} (hr : r ≤ 10000) : ethTarget preset r ≤ preset * 1000 := by
  unfold ethTarget roundHalfUpNat
  have := Nat.mul_le_mul_left (preset * 1000) hr
  omega

theorem shareCommand_le (rb h sMax : Nat) (d : Int) : shareCommand rb d h sMax ≤ sMax := by
  simp only [shareCommand]
  split <;> omega

theorem shareCommand_mono (rb h sMax : Nat) {d e : Int} (hde : d ≤ e) :
    shareCommand rb d h sMax ≤ shareCommand rb e h sMax := by
  have hq : (d * 10000).tdiv (h * 1000) ≤ (e * 10000).tdiv (h * 1000) := by
    rcases Nat.eq_zero_or_pos h with rfl | hpos
    · simp
    · exact Int.tdiv_le_tdiv (by positivity) (by omega)
  simp only [shareCommand]
  split <;> split <;> omega

theorem ethFraction_le (e b : Nat) : ethFraction e b ≤ 10000 := by
  unfold ethFraction
  split
  · omega
  · unfold roundHalfUpNat
    rw [← Nat.lt_succ_iff, Nat.div_lt_iff_lt_mul (by omega)]
    omega

theorem ethVerdictOf_notDelivered (e b r tol : Nat) : ethVerdictOf e b r tol = .notDelivered ↔ e = 0 ∧ b = 0 := by
  unfold ethVerdictOf
  split
  · simp; omega
  · split <;> simp <;> omega

theorem ethVerdictOf_inSpec {e b r tol : Nat} (h : ethVerdictOf e b r tol = .inSpec) :
    (ethFraction e b : Int) - r ≤ tol ∧ (r : Int) - ethFraction e b ≤ tol := by
  unfold ethVerdictOf at h
  split at h
  · cases h
  · split at h
    · omega
    · cases h

/-- Settles O60: each quantity by its definition. -/
theorem quantitiesStayInTheirRanges : Obligations.QuantitiesStayInTheirRanges :=
  ⟨fun n _ hd => roundHalfUp_bounds n hd, fun _ _ hb hlow hhigh => vcf_bounds hb hlow hhigh,
    fun beta => by simp [vcf, roundHalfUp],
    fun q fs hfs => ⟨valveCommand_le q fs, valveCommand_zero fs, valveCommand_full hfs⟩,
    fun preset r hr => Nat.add_sub_cancel' (ethTarget_le hr),
    fun rb h sMax d => shareCommand_le rb h sMax d, fun rb h sMax _ _ hde => shareCommand_mono rb h sMax hde,
    ethFraction_le, fun e b r tol => ⟨ethVerdictOf_notDelivered e b r tol, ethVerdictOf_inSpec⟩,
    fun _ _ dose _ hvw => Nat.div_le_div_right (Nat.mul_le_mul_right dose hvw)⟩

/-! ### The settings requests -/

theorem Source.index_injective {x y : Source} (h : x.index = y.index) : x = y := by
  cases x <;> cases y <;> first | rfl | cases h

/-- A flag after the flags of the sources named have been written. -/
theorem writeFlags_flag (names : List Source) (b : Bool) (flags : Vector Bool 8) (x : Source) :
    (writeFlags names b flags)[x.index] = if names.contains x then b else flags[x.index] := by
  unfold writeFlags
  induction names generalizing flags with
  | nil => rfl
  | cons y ys ih =>
    rw [List.foldl_cons, ih]
    by_cases hxy : x = y
    · subst hxy
      simp
    · have hne : y.index.val ≠ x.index.val := fun e => hxy (Source.index_injective (Fin.ext e)).symm
      simp [hxy, hne]

/-- Settles O42: what each request writes, flag by flag where it names sources. -/
theorem settingsAreWritten : Obligations.SettingsAreWritten := by
  intro f s hp
  refine ⟨fun q hsend hq => request_accepted ⟨hp, hsend⟩ hq rfl,
    fun n hsend hn => request_accepted ⟨hp, hsend⟩ hn rfl, fun names hsend hn => ?_, fun q hsend hq => ?_,
    fun level => event_powered (f := fun t => { t with calibration := level }) hp, fun n => event_powered hp⟩
  · refine ⟨writeFlags names false s.attention.pending, fun x => ?_, request_accepted ⟨hp, hsend⟩ hn rfl⟩
    rw [writeFlags_flag]
    cases names.contains x <;> simp
  · exact ⟨writeFlags q.sources q.action s.attention.enabled, fun x => writeFlags_flag _ _ _ x,
      request_accepted ⟨hp, hsend⟩ hq rfl⟩

theorem State.evaluateQueue_of_empty {s : State} (h : s.header.queue = []) : s.evaluateQueue = s := by
  simp [State.evaluateQueue, State.evaluateQueueFor, h]

/-- Settles O39: the settings are written before the head of the queue is evaluated, which keeps them. -/
theorem setHeaderWritesTheSettings : Obligations.SetHeaderWritesTheSettings := by
  intro f q s hs hq cap used lost answer
  refine ⟨fun hparts => request_refused hs hq (by simp [setHeaderRefusal, hparts]), fun hparts => ?_⟩
  have hwrite : s.header.write q = { s.header with cap := cap, pressureUsed := used, lost := lost } := by
    unfold Header.write
    cases hpr : q.pressure <;> simp [cap, used, lost, hpr, pressureLost]
  have hkept := (s.modHeader (Header.write q)).evaluateQueue_kept
  refine ⟨setHeaderAccept q s, (request_accepted hs hq (by simp [setHeaderRefusal, hparts])).trans ?_, ?_, ?_,
    hkept.link, fun hqueue => ?_⟩
  · simp only [setHeaderAnswer, hwrite]
    rfl
  · rw [setHeaderAccept, hkept.capacity, State.modHeader_header, hwrite]
    rfl
  · rw [setHeaderAccept, hkept.pressure.2, State.modHeader_header, hwrite]
  · rw [setHeaderAccept, State.evaluateQueue_of_empty (by rw [State.modHeader_header, hwrite, hqueue]),
      State.modHeader, hwrite]

end Sys2Proof.Machine
end

section
/-! PROOFS. Samples and readings (O35), stray pulses within the allowance (O29), and a cause taken as NOTE, with the link
timer that raises one (O47). -/

namespace Sys2Proof.Machine

/-! ### Two updates of one record -/

theorem State.modMeter_congr {s : State} {i : MeterId} {f g : Meter → Meter} (h : f (s.meter i) = g (s.meter i)) :
    s.modMeter i f = s.modMeter i g := by
  rw [State.modMeter, State.modMeter, h]

theorem State.modMeter_modMeter (s : State) (i : MeterId) (f g : Meter → Meter) :
    (s.modMeter i f).modMeter i g = s.modMeter i fun m => g (f m) := by
  simp only [State.modMeter, State.meter]
  congr 1
  ext j hj
  simp [Vector.getElem_set]

theorem State.modArm_modArm (s : State) (a : ArmId) (f g : Arm → Arm) :
    (s.modArm a f).modArm a g = s.modArm a fun x => g (f x) := by
  simp only [State.modArm, State.arm]
  congr 1
  ext j hj
  simp [Vector.getElem_set]

theorem State.modArm_congr {s : State} {a : ArmId} {f g : Arm → Arm} (h : f (s.arm a) = g (s.arm a)) :
    s.modArm a f = s.modArm a g := by
  rw [State.modArm, State.modArm, h]

theorem State.modHead_modHead {s : State} {a : ArmId} {f : Load → Load} (g : Load → Load)
    (h : ∀ l, l.state ≠ .ended → (f l).arm = l.arm ∧ (f l).state ≠ .ended) :
    (s.modHead a f).modHead a g = s.modHead a fun l => g (f l) := by
  unfold State.modHead
  dsimp only
  rw [updFirst_updFirst]
  intro l _ hp
  simp only [Bool.and_eq_true, beq_iff_eq, bne_iff_ne] at hp ⊢
  exact ⟨(h l hp.2).1.trans hp.1, (h l hp.2).2⟩

/-! ### A cause taken as NOTE (R186, R189) -/

/-- The detail of a condition-based cause is kept once (R190). -/
theorem Load.keepDetail_condition {c : Cause} {det : Detail} {l : Load} (hc : c.conditionBased = true) :
    l.keepDetail (.cause c) det = { l with
      holdDetails := if (c, det) ∈ l.holdDetails then l.holdDetails else l.holdDetails ++ [(c, det)] } := by
  by_cases h : (c, det) ∈ l.holdDetails <;> simp [Load.keepDetail, hc, h]

theorem Load.keepDetail_other {c : Cause} {det : Detail} {l : Load} (hc : c.conditionBased = false) :
    l.keepDetail (.cause c) det = l := by
  simp [Load.keepDetail, hc]

/-- A cause of class NOTE on a load in progress joins its notice set, with its detail where it is condition-based. -/
theorem State.takeCause_note {s : State} {a : ArmId} {l : Load} {c : Cause} (det : Detail)
    (hcls : s.causes[c.index] = .note) (hl : s.head a = some l) (hrun : l.state.inProgress = true) :
    s.takeCause a (.cause c) det = State.attend .notice (s.modHead a fun k =>
      { k.keepDetail (.cause c) det with notices := insertCause c k.notices }) := by
  have hrunning : s.running a = some l := by simp [State.running_of_head hl, hrun]
  have hkept : ∀ k : Load, (k.keepDetail (.cause c) det).notices = k.notices := fun k => by
    rw [Load.keepDetail_eq]
  simp only [State.takeCause, State.classOf, hcls, hrunning]
  rw [if_neg (by simp [escalates]), State.takeOnLoad]
  simp only [asNotice, if_true, State.takeNotice]
  rw [State.modHead_modHead]
  · simp only [hkept]
  · intro k hk
    exact ⟨by rw [Load.keepDetail_eq], by rwa [(Load.keepDetail_stage _ _ _).1]⟩

/-- A cause of any class but TRIP on an arm with no load in progress is discarded (R186). -/
theorem State.takeCause_idle {s : State} {a : ArmId} {c : Cause} (det : Detail)
    (hcls : s.causes[c.index] ≠ .trip) (hrun : s.headIs a LoadState.inProgress = false) :
    s.takeCause a (.cause c) det = s := by
  have hrunning : s.running a = none := by
    rw [← Option.not_isSome_iff_eq_none, State.running_isSome, hrun]
    simp
  simp only [State.takeCause, State.classOf, hrunning]
  split
  · rename_i h
    exact absurd h hcls
  · rfl

/-! ### Samples and readings -/

theorem Meter.sample_eq (v : Int) (m : Meter) : m.sample v =
    let hist := (m.tHist ++ [v]).drop (m.tHist.length + 1 - 2 ^ m.tDepth)
    { m with tHist := hist, tAvg := (2 * hist.sum + hist.length) / (2 * hist.length), probe := .good } := by
  simp [Meter.sample, lastN, meanHalfUp, roundHalfUp]

theorem Meter.read_eq (m : Meter) : m.read =
    let num := m.window * 100 * m.mf + m.residue
    let gained := num / m.k
    let hist := (m.qHist ++ [min 9999 (gained * 120 / 1000)]).drop (m.qHist.length + 1 - 2 ^ m.qDepth)
    { m with window := 0, residue := num - gained * m.k, qHist := hist, qAvg := hist.sum / hist.length } := by
  simp [Meter.read, lastN]

/-- A bad sample while no fault episode lasts (R83). -/
theorem State.takeSample_bad {s : State} {i : MeterId} {v : Int} (hv : v < -400 ∨ 600 < v)
    (hp : (s.meter i).probe ≠ .fault) :
    s.takeSample i v =
      let t := s.modMeter i fun m => { m with probe := .fault }
      match s.meterBinding i with
      | none => t
      | some (a, _) =>
        if s.headIs a LoadState.inProgress then t.takeCause a (.cause .probeFault) (.meter i) else t := by
  have hbad : goodSample v = false := by simp [goodSample]; omega
  unfold State.takeSample
  rw [if_neg (by simp [hbad]), if_neg (by simpa using hp)]
  dsimp only
  change (match s.meterBinding i with | none => _ | some (a, _) => _) = _
  split
  · rfl
  · rw [State.running_isSome]
    rfl

/-- A flow reading that raises no cause (R89). -/
theorem State.takeReading_bound {s : State} {i : MeterId} {a : ArmId} {r : Role} (hb : s.meterBinding i = some (a, r))
    (hq : (s.meter i).read.qAvg * 10 ≤ (s.defn a).qMax * 11 ∨ (s.meter i).high = true ∨
      s.headIs a LoadState.inProgress = false) :
    s.takeReading i = s.modMeter i fun m =>
      { m.read with high := decide ((s.defn a).qMax * 11 < (s.meter i).read.qAvg * 10) } := by
  have hmeter : (s.modMeter i Meter.read).meter i = (s.meter i).read := by simp
  unfold State.takeReading
  dsimp only
  rw [show (s.modMeter i Meter.read).meterBinding i = _ from hb]
  dsimp only
  rw [hmeter, State.modMeter_modMeter, if_neg]
  · rfl
  · rw [State.running_isSome]
    simp only [aboveLimit, Bool.and_eq_true, decide_eq_true_eq, Bool.not_eq_true', not_and]
    intro habove hrun
    rcases hq with hq | hq | hq
    · exact absurd habove.1 (by simpa using hq)
    · rw [show (s.meter i).read.high = (s.meter i).high from rfl, hq] at habove
      cases habove.2
    · have : s.headIs a LoadState.inProgress = true := hrun
      rw [hq] at this
      cases this

/-- Settles O35: the sample by R81 to R83, the reading by R87 to R89. -/
theorem samplesAndReadingsAreTaken : Obligations.SamplesAndReadingsAreTaken := by
  intro i s hp m
  refine ⟨fun v hlow hhigh => (event_powered hp).trans (congrArg _ ?_),
    fun v hv hf => (event_powered hp).trans (congrArg _ ?_),
    fun v hv hf hidle => (event_powered hp).trans (congrArg _ ?_),
    fun v a r hv hf hb hrun hcls => (event_powered hp).trans (congrArg _ ?_),
    fun hb => (event_powered hp).trans (congrArg _ ?_), fun a r hb hq => (event_powered hp).trans (congrArg _ ?_)⟩
  · rw [State.takeSample, if_pos (by simp [goodSample, hlow, hhigh])]
    exact State.modMeter_congr (Meter.sample_eq v m)
  · rw [State.takeSample, if_neg (by simp [goodSample]; omega), if_pos (by simpa using hf)]
  · rw [State.takeSample_bad hv hf]
    dsimp only
    split
    · rfl
    · rename_i a r hb
      rw [if_neg (by simp [hidle a r hb])]
  · obtain ⟨l, hl, hrunning⟩ : ∃ l, s.head a = some l ∧ l.state.inProgress = true := by
      simpa [State.headIs, Option.any_eq_true] using hrun
    rw [State.takeSample_bad hv hf, hb]
    dsimp only
    rw [if_pos hrun, State.takeCause_note (s := s.modMeter i _) (l := l) (.meter i) hcls hl hrunning]
    refine congrArg _ (congrArg (State.modHead a · _) (funext fun k => ?_))
    rw [Load.keepDetail_condition rfl]
  · rw [State.takeReading]
    dsimp only
    rw [show (s.modMeter i Meter.read).meterBinding i = _ from hb, State.modMeter_modMeter]
    exact State.modMeter_congr (by rw [Meter.read_eq])
  · have hread := Meter.read_eq m
    rw [State.takeReading_bound hb (by rw [hread]; exact hq)]
    exact State.modMeter_congr (by rw [hread])

/-! ### Stray pulses (R64, R65) -/

theorem State.meterBinding_some {s : State} {m : MeterId} {a : ArmId} {r : Role} (h : s.meterBinding m = some (a, r)) :
    ∃ d, (s.arm a).defn = some d ∧ d.roleOf m = some r := by
  obtain ⟨b, -, hb⟩ := List.exists_of_findSome?_eq_some h
  obtain ⟨k, hk, he⟩ := Option.map_eq_some_iff.mp hb
  obtain ⟨d, hd, hr⟩ := Option.bind_eq_some_iff.mp hk
  cases he
  exact ⟨d, hd, hr⟩

theorem ArmDef.roleOf_base {d : ArmDef} {m : MeterId} (h : d.roleOf m = some .base) : d.baseMeter = m := by
  unfold ArmDef.roleOf at h
  split at h
  · assumption
  · split at h <;> cases h

/-- The stray volume of a commissioned arm reads the factors of its meters alone (R64). -/
theorem State.strayVolume_of_defn {s : State} {x : Arm} {d : ArmDef} (h : x.defn = some d) :
    s.strayVolume x = min 4294967295
      (x.strayBase * 100 * (s.meter d.baseMeter).mf / (s.meter d.baseMeter).k +
        match d.ethMeter with
        | none => 0
        | some e => x.strayEth * 100 * (s.meter e).mf / (s.meter e).k) := by
  simp only [State.strayVolume, h, sat, volumeMax, pulseVolume, min_comm]
  cases d.ethMeter <;> rfl

/-- The channel after a pulse (R79). -/
def Meter.pulse (x : Meter) : Meter := { x with window := min 4294967295 (x.window + 1) }

/-- A pulse changes no factor of any meter. -/
theorem State.pulse_factors (s : State) (m i : MeterId) :
    ((s.modMeter m Meter.pulse).meter i).mf = (s.meter i).mf ∧ ((s.modMeter m Meter.pulse).meter i).k = (s.meter i).k := by
  rw [State.modMeter_meter]
  split <;> exact ⟨rfl, rfl⟩

theorem State.takePulse_eq (s : State) (m : MeterId) : s.takePulse m = match s.meterBinding m with
    | none => s.modMeter m Meter.pulse
    | some (a, r) => (s.modMeter m Meter.pulse).boundPulse a r m := by
  have hwindow : (fun x : Meter => { x with window := sat (x.window + 1) }) = Meter.pulse := by
    funext x
    simp [Meter.pulse, sat, volumeMax, min_comm]
  unfold State.takePulse
  rw [hwindow]
  rfl

/-- An arm after a pulse of one of its meters with no load in progress, the stray volume worked out by `volume` (R64). -/
def Arm.strayed (r : Role) (volume : Arm → Nat) (x : Arm) : Arm :=
  let y := { x with
    strayBase := if r = Role.base then min 4294967295 (x.strayBase + 1) else x.strayBase
    strayEth := if r = Role.ethanol then min 4294967295 (x.strayEth + 1) else x.strayEth }
  { y with strayVol := volume y }

theorem State.strayPulse_eq (s : State) (a : ArmId) (r : Role) (m : MeterId) :
    s.strayPulse a r m = State.watchLeak a m (s.modArm a (Arm.strayed r s.strayVolume)) := by
  unfold State.strayPulse
  dsimp only
  rw [State.modArm_modArm]
  refine congrArg _ (congrArg (State.modArm a · s) (funext fun x => ?_))
  cases r <;> simp [Arm.strayed, sat, volumeMax, min_comm] <;> rfl

/-- A pulse on a bound channel whose arm has no load in progress. -/
theorem State.takePulse_idle {s : State} {m : MeterId} {a : ArmId} {r : Role} (hb : s.meterBinding m = some (a, r))
    (hidle : s.headIs a LoadState.inProgress = false) :
    s.takePulse m = State.watchLeak a m ((s.modMeter m Meter.pulse).modArm a
      (Arm.strayed r (s.modMeter m Meter.pulse).strayVolume)) := by
  have hrunning : (s.modMeter m Meter.pulse).running a = none := by
    rw [← Option.not_isSome_iff_eq_none, State.running_isSome]
    exact Bool.eq_false_iff.mp hidle
  rw [State.takePulse_eq, hb]
  dsimp only
  rw [State.boundPulse, hrunning, State.strayPulse_eq]

/-- The stray volume of O29 and O30 for the arm's counts `base` and `eth`. -/
theorem State.strayed_volume {s : State} {a : ArmId} {d : ArmDef} (m : MeterId) (hd : (s.arm a).defn = some d)
    (base eth : Nat) :
    (s.modMeter m Meter.pulse).strayVolume { s.arm a with strayBase := base, strayEth := eth } =
      min 4294967295 (base * 100 * (s.meter d.baseMeter).mf / (s.meter d.baseMeter).k +
        match d.ethMeter with
        | none => 0
        | some e => eth * 100 * (s.meter e).mf / (s.meter e).k) := by
  rw [State.strayVolume_of_defn (x := { s.arm a with strayBase := base, strayEth := eth }) hd]
  simp only [State.pulse_factors]

/-- Within the allowance, and with the watch RAISED, nothing is raised (R65). -/
theorem State.watchLeak_quiet {s : State} {a : ArmId} (m : MeterId)
    (h : (s.arm a).strayVol ≤ (s.defn a).leak * 1000 ∨ (s.arm a).leakWatch = .raised) : s.watchLeak a m = s := by
  unfold State.watchLeak
  dsimp only
  rw [if_neg]
  simp only [Bool.and_eq_true, beq_iff_eq, decide_eq_true_eq, not_and, not_lt]
  intro harmed
  rcases h with h | h
  · exact h
  · rw [h] at harmed
    cases harmed

/-- Settles O29: the flow window, and the stray volume of a bound arm within its allowance. -/
theorem pulseWithoutALoadIsStray : Obligations.PulseWithoutALoadIsStray := by
  intro m s hp windowed
  refine ⟨fun hb => (event_powered hp).trans (congrArg _ ?_),
    fun a hb hidle vol hvol hquiet => (event_powered hp).trans (congrArg _ ?_)⟩
  · rw [State.takePulse_eq, hb]
    rfl
  · obtain ⟨d, hd, hrole⟩ := State.meterBinding_some hb
    have hdefn : s.defn a = d := by simp [State.defn, hd]
    have harm : Arm.strayed .base (s.modMeter m Meter.pulse).strayVolume (s.arm a) =
        { s.arm a with strayBase := min 4294967295 ((s.arm a).strayBase + 1), strayVol := vol } := by
      simp only [Arm.strayed, reduceCtorEq, if_true, if_false]
      rw [State.strayed_volume m hd, ArmDef.roleOf_base hrole, hvol, hdefn] <;> rfl
    rw [State.takePulse_idle hb hidle, State.watchLeak_quiet]
    · rw [State.modArm]
      exact congrArg (fun y => { windowed with arms := s.arms.set a y }) harm
    · left
      rw [State.modArm_arm_same]
      change (Arm.strayed .base _ (s.arm a)).strayVol ≤ _
      rw [harm]
      simpa [State.defn, Arm.strayed, State.modArm_arm] using hquiet

/-! ### The link timer (R198, R205) -/

/-- The record on which LINK_LOST has been taken as NOTE. -/
def Load.noteLink (l : Load) : Load := { l with notices := insertCause .linkLost l.notices }

/-- Whether an arm's head load is one LINK_LOST is raised on (R198). -/
def State.linkWatched (s : State) (a : ArmId) : Bool := s.commissioned a && s.headIs a LoadState.preSettling

theorem State.raiseLinkLost_note {s : State} {a : ArmId} (hcls : s.causes[Cause.linkLost.index] = .note)
    (hw : s.linkWatched a = true) : s.raiseLinkLost a = State.attend .notice (s.modHead a Load.noteLink) := by
  have hpre : s.headIs a LoadState.preSettling = true := by
    rw [State.linkWatched, Bool.and_eq_true] at hw
    exact hw.2
  obtain ⟨l, hl, hs⟩ : ∃ l, s.head a = some l ∧ l.state.preSettling = true := by
    simpa [State.headIs, Option.any_eq_true] using hpre
  have hrun : l.state.inProgress = true := by
    cases h : l.state <;> simp_all [LoadState.preSettling, LoadState.inProgress]
  rw [State.raiseLinkLost, if_pos (by simpa [State.linkWatched] using hw), State.takeCause_note _ hcls hl hrun]
  refine congrArg _ (congrArg (State.modHead a · s) (funext fun k => ?_))
  rw [Load.keepDetail_other rfl]
  rfl

theorem State.noteLink_head (a b : ArmId) (s : State) :
    (State.attend .notice (s.modHead a Load.noteLink)).head b =
      if b = a then (s.head a).map Load.noteLink else s.head b := by
  rw [State.attend_head]
  exact State.modHead_head (f := Load.noteLink) (fun _ hl => ⟨rfl, hl⟩) b

theorem State.noteLink_watched (a b : ArmId) (s : State) :
    (State.attend .notice (s.modHead a Load.noteLink)).linkWatched b = s.linkWatched b := by
  unfold State.linkWatched State.headIs
  rw [State.noteLink_head]
  split
  · rename_i h
    subst h
    cases s.head b <;> rfl
  · rfl

/-- LINK_LOST as NOTE on the head loads of a list of arms, in turn. -/
theorem State.raiseLinkLost_forAll {l : List ArmId} {s : State} (hcls : s.causes[Cause.linkLost.index] = .note)
    (hnd : l.Nodup) (hw : ∀ a ∈ l, s.linkWatched a = true) :
    let t := State.forAll l State.raiseLinkLost s
    t = { s with loads := t.loads, attention := t.attention } ∧
      (∀ a, t.head a = if a ∈ l then (s.head a).map Load.noteLink else s.head a) ∧
      (∀ a ∈ l, t.attention.pending[Source.notice.index] = true) := by
  induction l generalizing s with
  | nil => exact ⟨rfl, fun _ => rfl, fun _ h => by cases h⟩
  | cons a as ih =>
    obtain ⟨hnot, hnd⟩ := List.nodup_cons.mp hnd
    have hstep := State.raiseLinkLost_note hcls (hw a (by simp))
    have hwas : ∀ b ∈ as, (s.raiseLinkLost a).linkWatched b = true := fun b hb => by
      rw [hstep, State.noteLink_watched]
      exact hw b (by simp [hb])
    obtain ⟨hsame, hhead, -⟩ := ih (s := s.raiseLinkLost a) (by rw [hstep]; exact hcls) hnd hwas
    have hflag : (s.raiseLinkLost a).attention.pending[Source.notice.index] = true := by
      rw [hstep, State.attend_pending_flag]
      simp
    refine ⟨?_, fun b => ?_, fun _ _ => ?_⟩
    · rw [State.forAll_cons, hsame, hstep]
      rfl
    · rw [State.forAll_cons, hhead b, hstep, State.noteLink_head]
      by_cases hba : b = a
      · subst hba
        simp [hnot]
      · simp [hba]
    · exact (State.forAll_kept (s := s.raiseLinkLost a) fun b _ t => (t.raiseLinkLost_sound b).toKept).flags _ hflag

/-- Settles O47: the timer stops, and the watched head loads are noted one after the other. -/
theorem linkTimeoutRaisesLinkLost : Obligations.LinkTimeoutRaisesLinkLost := by
  intro s hp htimer hcls
  let u := s.modLink fun k => { k with timer := none }
  let watched := allArms.filter fun a => s.commissioned a && s.headIs a LoadState.preSettling
  let order := freeOrder s.choices watched
  have hmem : ∀ a, a ∈ order ↔ s.linkWatched a = true := fun a => by
    simp [order, watched, allArms, State.linkWatched]
  have hnd : order.Nodup := (freeOrder_perm _ _).nodup_iff.mpr ((List.nodup_finRange 8).filter _)
  obtain ⟨hsame, hhead, hflag⟩ := State.raiseLinkLost_forAll (s := { u with choices := s.choices + 1 }) hcls hnd
    fun a ha => (hmem a).mp ha
  have hunwatched : ∀ a, ((s.arm a).defn = none ∨ s.headIs a LoadState.preSettling = false) →
      s.linkWatched a = false := fun a h => by
    rcases h with h | h <;> simp [State.linkWatched, State.commissioned, h]
  refine ⟨State.forAll order State.raiseLinkLost { u with choices := s.choices + 1 },
    (event_powered hp).trans (congrArg _ (if_pos htimer)), (congrArg State.link hsame :), (congrArg State.arms hsame :),
    (congrArg State.header hsame :), (congrArg State.lanes hsame :), (congrArg State.injectors hsame :),
    (congrArg State.meters hsame :), (congrArg State.recipes hsame :), fun a l hc hl hs => ?_, fun a ha => ?_, fun hnone => ?_⟩
  · have ha : a ∈ order := (hmem a).mpr (by
      simp [State.linkWatched, State.commissioned, hc, State.headIs_of_head hl, hs])
    refine ⟨?_, hflag a ha⟩
    rw [hhead a, if_pos ha]
    exact congrArg (Option.map Load.noteLink) hl
  · rw [hhead a, if_neg (by rw [hmem, hunwatched a ha]; simp)]
    rfl
  · have hempty : order = [] := List.eq_nil_iff_forall_not_mem.mpr fun a ha => by
      have := (hmem a).mp ha
      rw [hunwatched a (hnone a)] at this
      cases this
    rw [hempty]
    exact ⟨rfl, rfl⟩

end Sys2Proof.Machine
end

section
/-! PROOFS. Power: the emergency stops read where no load is in progress, the interruption of loads, and with them loss
and return of supply (O48), RESTART and FACTORY_CLEAR (O49). -/

namespace Sys2Proof.Machine

/-! ### The emergency stops read with no load in progress (R195) -/

/-- An arm that has been locked or whose stray volume has been set to 0, or neither. -/
structure ArmShut (x y : Arm) : Prop where
  same  : y = { x with
    locked := y.locked, lockRecord := y.lockRecord, strayBase := y.strayBase, strayEth := y.strayEth
    strayVol := y.strayVol, leakWatch := y.leakWatch }
  stray : x.strayVol = 0 → y.strayVol = 0
  watch : x.leakWatch = .armed → y.leakWatch = .armed

theorem ArmShut.refl (x : Arm) : ArmShut x x := ⟨rfl, id, id⟩

theorem ArmShut.trans {x y z : Arm} (h : ArmShut x y) (g : ArmShut y z) : ArmShut x z where
  same := by rw [g.same, h.same]
  stray := g.stray ∘ h.stray
  watch := g.watch ∘ h.watch

theorem Arm.zeroStray_shut (x : Arm) : ArmShut x x.zeroStray := ⟨rfl, fun _ => rfl, fun _ => rfl⟩

/-- An arm locked with a cause, unless it is LOCKED already (R193, R194). -/
def Arm.lock (c : Cause) (det : Detail) (x : Arm) : Arm :=
  if x.locked then x else { x with locked := true, lockRecord := some (c, det) }

theorem Arm.lock_shut (c : Cause) (det : Detail) (x : Arm) : ArmShut x (x.lock c det) := by
  unfold Arm.lock
  split
  · exact .refl x
  · exact ⟨rfl, id, id⟩

theorem Arm.lock_locked (c : Cause) (det : Detail) (x : Arm) : (x.lock c det).locked = true := by
  unfold Arm.lock
  split
  · assumption
  · rfl

theorem Arm.lock_record (c : Cause) (det : Detail) (x : Arm) :
    (x.lock c det).lockRecord = if x.locked then x.lockRecord else some (c, det) := by
  unfold Arm.lock
  split <;> rfl

theorem State.lockArm_eq (a : ArmId) (c : Cause) (det : Detail) (s : State) :
    s.lockArm a c det = State.attend .armLocked (s.modArm a (Arm.lock c det)) := rfl

/-- With no load in progress a lane trip locks the arm alone. -/
theorem State.laneTrip_idle {s : State} {a : ArmId} (c : Cause) (det : Detail) (h : s.running a = none) :
    s.laneTrip c det a = s.lockArm a c det := by
  simp [State.laneTrip, State.actTrip, h]

/-- What shutting lanes changes while no load is in progress. -/
structure LanesRead (s t : State) : Prop where
  same    : t = { s with arms := t.arms, lanes := t.lanes, attention := t.attention, choices := t.choices }
  arm     : ∀ a, ArmShut (s.arm a) (t.arm a)
  outside : ∀ a, s.laneOf a = none → t.arm a = s.arm a

theorem LanesRead.refl (s : State) : LanesRead s s := ⟨rfl, fun _ => .refl _, fun _ _ => rfl⟩

theorem LanesRead.laneOf {s t : State} (h : LanesRead s t) (a : ArmId) : t.laneOf a = s.laneOf a := by
  rw [State.laneOf, (h.arm a).same]
  rfl

theorem LanesRead.loads {s t : State} (h : LanesRead s t) : t.loads = s.loads := by
  rw [h.same]

theorem LanesRead.running {s t : State} (h : LanesRead s t) (a : ArmId) : t.running a = s.running a :=
  State.running_congr h.loads a

theorem LanesRead.trans {s t u : State} (h : LanesRead s t) (g : LanesRead t u) : LanesRead s u where
  same := by rw [g.same, h.same]
  arm := fun a => (h.arm a).trans (g.arm a)
  outside := fun a ha => (g.outside a ((h.laneOf a).trans ha)).trans (h.outside a ha)

theorem LanesRead.attend {s t : State} (h : LanesRead s t) (x : Source) : LanesRead s (t.attend x) :=
  ⟨by rw [State.attend, h.same], h.arm, h.outside⟩

theorem LanesRead.modArm {s t : State} {a : ArmId} {f : Arm → Arm} (h : LanesRead s t) (ha : s.laneOf a ≠ none)
    (hf : ∀ x, ArmShut x (f x)) : LanesRead s (t.modArm a f) where
  same := by rw [State.modArm, h.same]
  arm := fun b => by
    rw [State.modArm_arm]
    split
    · exact (h.arm b).trans (hf _)
    · exact h.arm b
  outside := fun b hb => by
    rw [State.modArm_arm_ne fun e : b = a => ha (e ▸ hb)]
    exact h.outside b hb

theorem LanesRead.choice (s : State) (n : Nat) : LanesRead s { s with choices := n } :=
  ⟨rfl, fun _ => .refl _, fun _ _ => rfl⟩

theorem State.modLane_read (n : LaneId) (f : Lane → Lane) (s : State) : LanesRead s (s.modLane n f) :=
  ⟨rfl, fun _ => .refl _, fun _ _ => rfl⟩

theorem State.shutLane_read (n : LaneId) (c : Cause) (s : State) : LanesRead s (s.shutLane n c) := by
  unfold State.shutLane
  split
  · exact .refl s
  · refine LanesRead.attend (State.forAll_keeps (P := LanesRead s) (s.modLane_read _ _) fun a ha t ht => ?_) _
    exact ht.modArm (by rw [State.mem_laneArms.mp ha]; simp) Arm.zeroStray_shut

theorem State.forAll_laneTrip_read {s t : State} {l : List ArmId} (c : Cause) (det : Detail)
    (hidle : ∀ a, s.running a = none) (hl : ∀ a ∈ l, s.laneOf a ≠ none) (h : LanesRead s t) :
    LanesRead s (State.forAll l (State.laneTrip c det) t) ∧
      (State.forAll l (State.laneTrip c det) t).lanes = t.lanes := by
  refine State.forAll_keeps (P := fun u => LanesRead s u ∧ u.lanes = t.lanes) ⟨h, rfl⟩ fun a ha u hu => ?_
  rw [State.laneTrip_idle c det ((hu.1.running a).trans (hidle a)), State.lockArm_eq]
  exact ⟨(hu.1.modArm (hl a ha) (Arm.lock_shut c det)).attend _, hu.2⟩

/-- An emergency stop of a lane with no load in progress: what shutting the lane brings, and the locks. -/
theorem State.emergencyTrip_read {s : State} (n : LaneId) (hidle : ∀ a, s.running a = none) :
    LanesRead s (s.emergencyTrip n) ∧ (s.emergencyTrip n).lanes = (s.shutLane n .emergencyStop).lanes := by
  have hshut := s.shutLane_read n .emergencyStop
  refine State.forAll_laneTrip_read _ _ hidle (fun a ha => ?_) (hshut.trans (.choice _ _))
  rw [State.mem_laneArms.mp (mem_freeOrder.mp ha)]
  simp

theorem State.shutLane_lane (n k : LaneId) (c : Cause) (s : State) : (s.shutLane n c).lane k =
    if k = n ∧ (s.lane n).shut = false then { s.lane n with shut := true, shutCause := some c } else s.lane k := by
  unfold State.shutLane
  split
  · rename_i h
    simp [h]
  · rename_i h
    have hl : ∀ t : State, (State.forAll (s.laneArms n) State.zeroStray t).lane k = t.lane k := fun t =>
      State.forAll_keeps (P := fun u => u.lane k = t.lane k) rfl fun _ _ _ hu => hu
    rw [State.attend_lane, hl, State.modLane_lane]
    by_cases hk : k = n
    · subst hk
      simp [h]
    · simp [hk]

theorem State.lane_congr {s t : State} (h : t.lanes = s.lanes) (n : LaneId) : t.lane n = s.lane n := by
  rw [State.lane, State.lane, h]

theorem State.readEmergency_read {s : State} (n : LaneId) (hidle : ∀ a, s.running a = none) :
    LanesRead s (s.readEmergency n) ∧ ∀ k, (s.readEmergency n).lane k =
      if k = n ∧ (s.lane n).emergency = true ∧ (s.lane n).shut = false then
        { s.lane n with shut := true, shutCause := some .emergencyStop }
      else s.lane k := by
  unfold State.readEmergency
  split
  · rename_i h
    simp only [Bool.and_eq_true, Bool.not_eq_true'] at h
    obtain ⟨hread, hlanes⟩ := State.emergencyTrip_read n hidle
    refine ⟨hread, fun k => ?_⟩
    rw [State.lane_congr hlanes, State.shutLane_lane]
    simp [h]
  · rename_i h
    refine ⟨.refl s, fun k => ?_⟩
    rw [if_neg fun e => h (by simp [e.2.1, e.2.2])]

/-- The arms that a run of lane trips goes over are LOCKED after it. -/
theorem State.forAll_laneTrip_locked {l : List ArmId} (c : Cause) (det : Detail) (s : State) {a : ArmId} (ha : a ∈ l) :
    ((State.forAll l (State.laneTrip c det) s).arm a).locked = true := by
  induction l generalizing s with
  | nil => cases ha
  | cons b bs ih =>
    rw [State.forAll_cons]
    by_cases hb : a ∈ bs
    · exact ih _ hb
    · have hab : a = b := by simpa [hb] using ha
      subst hab
      have hlocked : ((s.laneTrip c det a).arm a).locked = true := by
        rw [State.laneTrip, State.lockArm_eq, State.attend_arm, State.modArm_arm_same]
        exact Arm.lock_locked _ _ _
      exact ((State.forAll_kept (s := s.laneTrip c det a) fun b _ t => State.laneTrip_kept c det b t).arm a).locked
        hlocked |>.1

theorem State.readEmergency_kept (n : LaneId) (s : State) : Kept s (s.readEmergency n) := by
  unfold State.readEmergency
  split
  · exact s.emergencyTrip_kept n
  · exact .refl s

/-- Reading the emergency stops of a list of lanes, with no load in progress. -/
theorem State.forAll_readEmergency {l : List LaneId} {s : State} (hidle : ∀ a, s.running a = none) :
    LanesRead s (State.forAll l State.readEmergency s) ∧
      (∀ n, ((State.forAll l State.readEmergency s).lane n).shut =
        ((s.lane n).shut || (decide (n ∈ l) && (s.lane n).emergency))) ∧
      ∀ n ∈ l, (s.lane n).emergency = true → (s.lane n).shut = false → ∀ a, s.laneOf a = some n →
        ((State.forAll l State.readEmergency s).arm a).locked = true := by
  induction l generalizing s with
  | nil => exact ⟨.refl s, by simp, by simp⟩
  | cons m ms ih =>
    obtain ⟨hread, hlane⟩ := State.readEmergency_read m hidle
    obtain ⟨hreads, hshut, hlock⟩ := ih fun a => (hread.running a).trans (hidle a)
    refine ⟨hread.trans hreads, fun n => ?_, fun n hn he hs a ha => ?_⟩
    · rw [State.forAll_cons, hshut n, hlane n]
      by_cases hnm : n = m
      · subst hnm
        cases h1 : (s.lane n).shut <;> cases h2 : (s.lane n).emergency <;> simp [h1, h2]
      · simp [hnm]
    · by_cases hnm : n = m
      · subst hnm
        have htrip : ((s.readEmergency n).arm a).locked = true := by
          rw [State.readEmergency, if_pos (by simp [he, hs])]
          exact State.forAll_laneTrip_locked _ _ _ (mem_freeOrder.mpr (State.mem_laneArms.mpr ha))
        exact (((State.forAll_kept (s := s.readEmergency n) fun k _ t => State.readEmergency_kept k t).arm a).locked htrip).1
      · refine hlock n (by simpa [hnm] using hn) ?_ ?_ a ((hread.laneOf a).trans ha)
        · rw [hlane n, if_neg (by simp [hnm])]
          exact he
        · rw [hlane n, if_neg (by simp [hnm])]
          exact hs

/-! ### The live state begun anew (R72, R91, R141, R158, R178, R182) -/

theorem State.beginLive_sameRetained (inp : Inputs) (s : State) : sameRetained s (s.beginLive inp) := by
  refine ⟨fun a => ?_, fun a h => ?_, fun n h => ?_, rfl, fun m => ?_, fun j => ?_, rfl, rfl, rfl, rfl, rfl⟩
  · rw [State.beginLive_arm]; rfl
  · rw [State.beginLive_arm]; exact ⟨h, rfl⟩
  · rw [State.beginLive_lane]; exact ⟨h, rfl⟩
  · rw [State.beginLive_meter]; rfl
  · rw [State.beginLive_injector]; rfl

/-- What keeps retained memory after it has been taken up keeps it. -/
theorem Kept.sameRetained {s t u : State} (g : sameRetained s t) (h : Kept t u) : sameRetained s u := by
  obtain ⟨hdefn, hlocked, hshut, hcount, hmeters, hinj, hheader, hcauses, henabled, hmaster, hlink⟩ := g
  refine ⟨fun a => (h.arm a).defn.trans (hdefn a), fun a ha => ?_, fun n hn => ?_, h.metrology.trans hcount,
    fun m => ?_, fun j => (h.injector j).settings.trans (hinj j), h.capacity.trans hheader,
    h.causes.trans hcauses, h.enabled.trans henabled, h.master.trans hmaster, ?_⟩
  · obtain ⟨h1, h2⟩ := hlocked a ha
    obtain ⟨h3, h4⟩ := (h.arm a).locked h1
    exact ⟨h3, h4.trans h2⟩
  · obtain ⟨h1, h2⟩ := hshut n hn
    rw [(h.lane n).shut h1]
    exact ⟨h1, h2⟩
  · rw [h.meter m]
    exact hmeters m
  · rw [h.link]
    exact hlink

/-- The live state but for the attention flags: what `freshLive` says of it. -/
def State.begun (t : State) : Prop :=
  (∀ a, (t.arm a).valveBase = 0 ∧ (t.arm a).valveEth = 0 ∧ (t.arm a).flow = FlowState.fresh ∧
    (t.arm a).strayVol = 0 ∧ (t.arm a).leakWatch = .armed ∧ (t.arm a).latched = [] ∧
    (t.arm a).permissive = (t.arm a).derivedPermissive) ∧
  (∀ m, (t.meter m).tHist = [] ∧ (t.meter m).tAvg = 150 ∧ (t.meter m).probe = .waiting ∧
    (t.meter m).window = 0 ∧ (t.meter m).qAvg = 0) ∧
  (∀ j, (t.injector j).state = .idle ∧ (t.injector j).strokeLoad = none ∧
    (t.injector j).lagWatch = .armed ∧ (t.injector j).catchUp = 0) ∧
  t.header.parts = [] ∧ t.header.queue = [] ∧ t.link.timer = none ∧ t.link.receiving = false

theorem State.beginLive_begun (inp : Inputs) (s : State) : (s.beginLive inp).begun := by
  refine ⟨fun a => ?_, fun m => ?_, fun j => ?_, rfl, rfl, rfl, rfl⟩
  · rw [State.beginLive_arm]; exact ⟨rfl, rfl, rfl, rfl, rfl, rfl, rfl⟩
  · rw [State.beginLive_meter]; exact ⟨rfl, rfl, rfl, rfl, rfl⟩
  · rw [State.beginLive_injector]; exact ⟨rfl, rfl, rfl, rfl⟩

/-- Arms whose lane is shut keep a live state begun anew. -/
theorem LanesRead.begun {s t : State} (h : LanesRead s t) (hs : s.begun) : t.begun := by
  obtain ⟨harm, hmeter, hinj, hheader⟩ := hs
  have hrest : t = { s with arms := t.arms, lanes := t.lanes, attention := t.attention, choices := t.choices } := h.same
  refine ⟨fun a => ?_, ?_, ?_, ?_⟩
  · obtain ⟨h1, h2, h3, h4, h5, h6, h7⟩ := harm a
    have ha := (h.arm a).same
    refine ⟨?_, ?_, ?_, (h.arm a).stray h4, (h.arm a).watch h5, ?_, ?_⟩
    · rw [ha]; exact h1
    · rw [ha]; exact h2
    · rw [ha]; exact h3
    · rw [ha]; exact h6
    · rw [ha]; exact h7
  · rw [hrest]; exact hmeter
  · rw [hrest]; exact hinj
  · rw [hrest]; exact hheader

/-- The restored state, once the emergency stops have been read (R195, R207). -/
def State.settledPower (s : State) : State := State.readEmergencies (s.attend .powerRestored)

theorem State.settledPower_kept (s : State) : Kept s s.settledPower :=
  (s.attend_kept .powerRestored).trans (State.readEmergencies_kept _)

theorem State.settledPower_read {s : State} (hidle : ∀ a, s.running a = none) : LanesRead s s.settledPower :=
  LanesRead.trans (.attend (.refl s) _) (State.forAll_readEmergency (s := s.attend .powerRestored) hidle).1

theorem State.settledPower_shut {s : State} (hidle : ∀ a, s.running a = none) (n : LaneId) :
    (s.settledPower.lane n).shut = ((s.lane n).shut || (s.lane n).emergency) := by
  rw [State.settledPower, State.readEmergencies, (State.forAll_readEmergency (s := s.attend .powerRestored) hidle).2.1]
  simp

theorem State.settledPower_locked {s : State} (hidle : ∀ a, s.running a = none) {n : LaneId} {a : ArmId}
    (he : (s.lane n).emergency = true) (hs : (s.lane n).shut = false) (ha : s.laneOf a = some n) :
    (s.settledPower.arm a).locked = true :=
  (State.forAll_readEmergency (s := s.attend .powerRestored) hidle).2.2 n (by simp) he hs a ha

theorem State.settledPower_fresh {s : State} (hidle : ∀ a, s.running a = none) (h : s.begun) :
    freshLive s.settledPower := by
  obtain ⟨harm, hmeter, hinj, hparts, hqueue, htimer, hreceiving⟩ := (State.settledPower_read hidle).begun h
  refine ⟨harm, hmeter, hinj, hparts, hqueue, htimer, hreceiving, ?_⟩
  refine (State.readEmergencies_kept (s.attend .powerRestored)).flags Source.powerRestored.index ?_
  rw [State.attend_pending_flag]
  simp

theorem State.running_none_of_loads {s : State} (h : ∀ l ∈ s.loads, l.state.inProgress = false) (a : ArmId) :
    s.running a = none := by
  rw [State.running, Option.filter_eq_none_iff]
  intro l hl
  rw [h l (State.head_some hl).1]
  simp

/-! ### RESTART and FACTORY_CLEAR (R208, R209) -/

/-- A frame whose reply leaves the link timer to run. -/
theorem takeFrame_refused {f : State → Reply} {s : State} {c : Code} (hs : s.ready)
    (h : f s = { state := s, response := .no c, stopsTimer := false }) :
    event (State.takeFrame f) s = .next (s.answered s (.no c)) := by
  obtain ⟨hp, hsend⟩ := hs
  rw [event_powered hp, State.takeFrame, if_neg (by simp [hsend]), h, Reply.finish_running]

/-- A frame whose reply stops the link timer. -/
theorem takeFrame_stopped {f : State → Reply} {s t : State} {r : Response} (hs : s.ready)
    (h : f s = { state := t, response := r, stopsTimer := true }) :
    event (State.takeFrame f) s = .next (s.answeredStopped t r) := by
  obtain ⟨hp, hsend⟩ := hs
  rw [event_powered hp, State.takeFrame, if_neg (by simp [hsend]), h, Reply.finish_stopped]

theorem State.cleared_meter (m : MeterId) (s : State) : s.cleared.meter m = factoryMeter := by
  simp [State.cleared, State.meter]

theorem State.cleared_injector (j : InjId) (s : State) : s.cleared.injector j =
    { factoryInjector with proofIn := (s.injector j).proofIn, supplyLow := (s.injector j).supplyLow } := by
  simp [State.cleared, State.injector]

/-- The live state of FACTORY_CLEAR, before the emergency stops are read. -/
def State.clearedLive (s : State) : State := s.cleared.beginLive s.inputs

theorem State.clearFactory_settled (s : State) : s.clearFactory = s.clearedLive.settledPower := rfl

theorem State.clearedLive_arm (a : ArmId) (s : State) : (s.clearedLive.arm a).defn = none ∧
    (s.clearedLive.arm a).locked = false ∧ (s.clearedLive.arm a).lockRecord = none := by
  rw [State.clearedLive, State.beginLive_arm, State.cleared_arm]
  exact ⟨rfl, rfl, rfl⟩

theorem State.clearFactory_kept (s : State) : Kept s.clearedLive s.clearFactory := s.clearedLive.settledPower_kept

section
variable {s : State} (hloads : s.loads = [])
include hloads

theorem State.clearedLive_idle (a : ArmId) : s.clearedLive.running a = none := by
  refine State.running_none_of_loads (fun l hl => ?_) a
  change l ∈ s.loads at hl
  rw [hloads] at hl
  cases hl

theorem State.clearFactory_read : LanesRead s.clearedLive s.clearFactory :=
  State.settledPower_read (State.clearedLive_idle hloads)

theorem State.clearFactory_arm (a : ArmId) : (s.clearFactory.arm a).defn = none ∧
    (s.clearFactory.arm a).locked = false ∧ (s.clearFactory.arm a).lockRecord = none := by
  rw [(State.clearFactory_read hloads).outside a (by rw [State.laneOf, (s.clearedLive_arm a).1]; rfl)]
  exact s.clearedLive_arm a

theorem State.clearFactory_shut (n : LaneId) : (s.clearFactory.lane n).shut = (s.lane n).emergency := by
  rw [State.clearFactory_settled, State.settledPower_shut (State.clearedLive_idle hloads), State.clearedLive,
    State.beginLive_lane, State.cleared_lane]
  simp [State.inputs, State.lane]

theorem State.clearFactory_fresh : freshLive s.clearFactory :=
  State.settledPower_fresh (State.clearedLive_idle hloads) (State.beginLive_begun _ _)

end

theorem State.clearFactory_meter (m : MeterId) (s : State) :
    (s.clearFactory.meter m).settings = (100000, 10000, 0, 2, 1) := by
  rw [s.clearFactory_kept.meter m, State.clearedLive, State.beginLive_meter, State.cleared_meter]
  rfl

theorem State.clearFactory_injector (j : InjId) (s : State) :
    (s.clearFactory.injector j).settings = (1, 1000, 200, 1000, false) := by
  rw [(s.clearFactory_kept.injector j).settings, State.clearedLive, State.beginLive_injector, State.cleared_injector]
  rfl

theorem State.clearFactory_causes (c : Cause) (s : State) : s.clearFactory.causes[c.index] = c.default := by
  rw [show s.clearFactory.causes = factoryCauses from s.clearFactory_kept.causes]
  cases c <;> decide

theorem State.clearFactory_enabled (i : Fin 8) (s : State) : s.clearFactory.attention.enabled[i] = true := by
  rw [show s.clearFactory.attention.enabled = Vector.replicate 8 true from s.clearFactory_kept.enabled]
  simp

/-- RESTART with no load in progress begins the live state anew (R208). -/
theorem State.restartModule_begins {s : State} (sw : Switches) (hidle : ∀ l ∈ s.loads, l.state.inProgress = false) :
    (s.restartModule sw).loads = s.loads ∧ (s.restartModule sw).recipes = s.recipes ∧
      (s.restartModule sw).link.switches = sw ∧ sameRetained s (s.restartModule sw) ∧ freshLive (s.restartModule sw) := by
  have hrun := State.running_none_of_loads (s := s.beginLive { s.inputs with switches := sw }) hidle
  have hread := State.settledPower_read hrun
  exact ⟨hread.loads, (congrArg State.recipes hread.same :), (congrArg (fun t => t.link.switches) hread.same :),
    (State.settledPower_kept _).sameRetained (State.beginLive_sameRetained _ s),
    State.settledPower_fresh hrun (State.beginLive_begun _ s)⟩

/-- Settles O49: the checks in order, and the live state begun anew by an accepted one. -/
theorem restartAndFactoryClear : Obligations.RestartAndFactoryClear := by
  intro f sw s hs
  refine ⟨fun hf => ⟨takeFrame_refused hs ?_, takeFrame_refused hs ?_⟩, fun hrun => takeFrame_refused hs ?_,
    fun hidle => ⟨s.restartModule sw, takeFrame_stopped hs ?_, State.restartModule_begins sw hidle⟩,
    fun hopen => takeFrame_refused hs ?_, fun hclosed hloads => takeFrame_refused hs ?_,
    fun hclosed hloads => ⟨s.clearFactory, takeFrame_stopped hs ?_, ?_⟩⟩
  · simp [restartReply, hf]
  · simp [factoryClearReply, hf]
  · simp only [restartReply, List.isEmpty_nil, Bool.not_true, Bool.false_eq_true, if_false]
    rw [if_pos (by simpa using hrun)]
  · simp only [restartReply, List.isEmpty_nil, Bool.not_true, Bool.false_eq_true, if_false]
    rw [if_neg (by simpa using hidle)]
  · simp [factoryClearReply, hopen]
  · simp [factoryClearReply, hclosed, hloads]
  · simp only [factoryClearReply, List.isEmpty_nil, Bool.not_true, Bool.false_eq_true, if_false, hclosed, hloads,
      bne_self_eq_false]
  · have hkept := s.clearFactory_kept
    have hread := State.clearFactory_read hloads
    exact ⟨hread.loads.trans hloads, (congrArg State.recipes hread.same :), hkept.metrology,
      State.clearFactory_arm hloads, State.clearFactory_shut hloads, fun m => s.clearFactory_meter m,
      fun j => s.clearFactory_injector j, hkept.capacity, fun c => s.clearFactory_causes c,
      fun i => s.clearFactory_enabled i, hkept.master, (congrArg Link.timeout hkept.link :),
      (congrArg Link.switches hkept.link :), State.clearFactory_fresh hloads⟩

/-! ### The interruption of loads (R29) -/

/-- What an interruption makes of the record of a load in progress (R29, R117). -/
structure Interrupted (metrology : Nat) (l m : Load) : Prop where
  number  : m.number = l.number
  state   : m.state = .ended
  outcome : m.outcome = some .interrupted
  volume  : m.v = l.v
  overrun : m.overrun = some (l.v - l.preset * 1000)
  stop    : m.stop1 = l.stop1
  holds   : m.holds = l.holds
  count   : m.mce = metrology

/-- A net close changes the accounts alone. -/
theorem State.netCloseRole_eq (s : State) (d : ArmDef) (live : Bool) (r : Role) (l : Load) :
    s.netCloseRole d live r l =
      { l with base := (s.netCloseRole d live r l).base, eth := (s.netCloseRole d live r l).eth } := by
  unfold State.netCloseRole
  split
  · rfl
  · cases r <;> rfl

theorem State.netCloseLoad_eq (s : State) (live : Bool) (l : Load) :
    s.netCloseLoad live l = { l with base := (s.netCloseLoad live l).base, eth := (s.netCloseLoad live l).eth } := by
  unfold State.netCloseLoad
  dsimp only
  rw [State.netCloseRole_eq, State.netCloseRole_eq]

theorem State.interruptLoad_interrupted (s : State) (l : Load) : Interrupted s.metrology l (s.interruptLoad l) := by
  rw [State.interruptLoad_eq, State.netCloseLoad_eq]
  exact ⟨rfl, rfl, rfl, rfl, rfl, rfl, rfl, rfl⟩

theorem State.load_of_mem {s : State} {l : Load} (hnd : (s.loads.map (·.number)).Nodup) (hl : l ∈ s.loads) :
    s.load l.number = some l := by
  have hsome : (s.load l.number).isSome = true := List.find?_isSome.mpr ⟨l, hl, by simp⟩
  obtain ⟨m, hm⟩ := Option.isSome_iff_exists.mp hsome
  obtain ⟨hmem, hnum⟩ := State.mem_of_load hm
  rw [hm, List.inj_on_of_nodup_map hnd hmem hl hnum]

/-- An interruption of the record with a number leaves every other record, and any that is not in progress. -/
theorem State.interruptRecord_other {s : State} {n : Nat} {l : Load} (hl : l ∈ s.loads)
    (h : l.number ≠ n ∨ l.state.inProgress = false) (hnd : (s.loads.map (·.number)).Nodup) :
    l ∈ (s.interruptRecord n).loads := by
  unfold State.interruptRecord
  split
  · exact hl
  · rename_i k hk
    split
    · rename_i hrun
      simp only [State.attend_loads, State.lowerReference_loads]
      refine mem_updFirst_of_not hl ?_
      rcases h with h | h
      · simpa using h
      · by_contra hn
        have hnum : l.number = n := by simpa using hn
        have := State.load_of_mem hnd hl
        rw [hnum, hk] at this
        rw [Option.some.inj this, h] at hrun
        cases hrun
    · exact hl

theorem State.interruptRecord_done {s : State} {l : Load} (hl : l ∈ s.loads) (hrun : l.state.inProgress = true)
    (hnd : (s.loads.map (·.number)).Nodup) : s.interruptLoad l ∈ (s.interruptRecord l.number).loads ∧
      (s.interruptRecord l.number).attention.pending[Source.loadEnded.index] = true := by
  have hload := State.load_of_mem hnd hl
  rw [State.interruptRecord, hload]
  dsimp only
  rw [if_pos hrun]
  refine ⟨?_, by rw [State.attend_pending_flag]; simp⟩
  simp only [State.attend_loads, State.lowerReference_loads, State.modLoad]
  rw [updFirst_congr (g := fun _ => s.interruptLoad l) fun x hx => by
    rw [Option.some.inj (hx.symm.trans hload)]]
  rcases updFirst_cases (p := fun x : Load => x.number == l.number) (f := fun _ => s.interruptLoad l) (l := s.loads)
    with ⟨-, hnone⟩ | ⟨as, x, bs, -, -, -, he⟩
  · simpa using hnone l hl
  · rw [he]
    simp

/-- The records of a table after the interruption of a list of numbers. -/
theorem State.forAll_interruptRecord {ns : List Nat} {s : State} (hstill : s.Still)
    (hnd : (s.loads.map (·.number)).Nodup) {l : Load} (hl : l ∈ s.loads) :
    let t := State.forAll ns State.interruptRecord s
    (l.state.inProgress = false → l ∈ t.loads) ∧
      (l.state.inProgress = true → l.number ∈ ns → (∃ m ∈ t.loads, Interrupted s.metrology l m) ∧
        t.attention.pending[Source.loadEnded.index] = true) := by
  induction ns generalizing s l with
  | nil => exact ⟨fun _ => hl, fun _ h => by cases h⟩
  | cons n ns ih =>
    obtain ⟨hsound, hstill'⟩ := State.interruptRecord_sound n hstill
    have hnd' : ((s.interruptRecord n).loads.map (·.number)).Nodup := hsound.numbers ▸ hnd
    have hnext := fun k (hk : k ∈ (s.interruptRecord n).loads) => ih hstill' hnd' hk
    refine ⟨fun hidle => (hnext l (State.interruptRecord_other hl (.inr hidle) hnd)).1 hidle, fun hrun hmem => ?_⟩
    by_cases hn : l.number = n
    · subst hn
      obtain ⟨hdone, hflag⟩ := State.interruptRecord_done hl hrun hnd
      have hint := s.interruptLoad_interrupted l
      refine ⟨⟨_, (hnext _ hdone).1 (by rw [hint.state]; rfl), hint⟩, ?_⟩
      exact (State.forAll_keeps (P := fun t => Kept (s.interruptRecord l.number) t ∧ t.Still) ⟨.refl _, hstill'⟩
        fun k _ t ht => ⟨ht.1.trans (State.interruptRecord_sound k ht.2).1.toKept,
          (State.interruptRecord_sound k ht.2).2⟩).1.flags _ hflag
    · have := (hnext l (State.interruptRecord_other hl (.inl hn) hnd)).2 hrun
        (by simpa [hn] using hmem)
      rwa [hsound.metrology] at this

/-- The interruption changes the load and recipe tables and the attention flags alone. -/
theorem State.interruptLoads_same (s : State) : s.interruptLoads = { s with
    loads := s.interruptLoads.loads, recipes := s.interruptLoads.recipes, attention := s.interruptLoads.attention } := by
  refine State.forAll_keeps (P := fun t => t = { s with
    loads := t.loads, recipes := t.recipes, attention := t.attention }) rfl fun n _ t ht => ?_
  unfold State.interruptRecord
  split
  · exact ht
  · split
    · rw [State.lowerReference_eq, State.attend, State.modLoad, ht]
    · exact ht

/-- The state a return of supply begins with (R207). -/
def State.restoring (inp : Inputs) (s : State) : State := { s.beginLive inp with powered := true }

theorem State.restorePower_eq (inp : Inputs) (s : State) :
    s.restorePower inp = (s.restoring inp).interruptLoads.settledPower := rfl

theorem State.restoring_still (inp : Inputs) (s : State) : (s.restoring inp).Still :=
  ⟨(s.beginLive_still inp).parts, (s.beginLive_still inp).queue, (s.beginLive_still inp).valves⟩

theorem State.interruptLoads_begun {s : State} (h : s.begun) : s.interruptLoads.begun := by
  rw [State.interruptLoads_same]
  exact h

section
variable {s : State} (inp : Inputs) (htable : s.loadTableOk)
include htable

/-- No load is in progress once every one has been interrupted. -/
theorem State.interruptLoads_idle : ∀ m ∈ (s.restoring inp).interruptLoads.loads, m.state.inProgress = false := by
  intro m hm
  have hkept := (State.interruptLoads_sound (s.restoring_still inp)).toKept
  obtain ⟨l, hl, hlm⟩ := hkept.mem_loads hm
  have hnd := (hkept.loadTableOk htable).2
  have hfinal := State.forAll_interruptRecord (ns := s.loads.map (·.number)) (s.restoring_still inp) htable.2 hl
  cases hrun : l.state.inProgress with
  | false =>
    rw [List.inj_on_of_nodup_map hnd hm (hfinal.1 hrun) hlm.number]
    exact hrun
  | true =>
    obtain ⟨⟨k, hk, hint⟩, -⟩ := hfinal.2 hrun (List.mem_map_of_mem hl)
    rw [List.inj_on_of_nodup_map hnd hm hk (hlm.number.trans hint.number.symm), hint.state]
    rfl

theorem State.restorePower_running (a : ArmId) : (s.restoring inp).interruptLoads.running a = none :=
  State.running_none_of_loads (State.interruptLoads_idle inp htable) a

theorem State.restorePower_record {l : Load} (hl : l ∈ s.loads) :
    (l.state.inProgress = false → l ∈ (s.restorePower inp).loads) ∧
      (l.state.inProgress = true → (∃ m ∈ (s.restorePower inp).loads, Interrupted s.metrology l m) ∧
        (s.restorePower inp).attention.pending[Source.loadEnded.index] = true) := by
  have hfinal := State.forAll_interruptRecord (ns := s.loads.map (·.number)) (s.restoring_still inp) htable.2 hl
  have hloads : (s.restorePower inp).loads = (s.restoring inp).interruptLoads.loads :=
    (State.settledPower_read (State.restorePower_running inp htable)).loads
  refine ⟨fun h => hloads ▸ hfinal.1 h, fun h => ?_⟩
  obtain ⟨hint, hflag⟩ := hfinal.2 h (List.mem_map_of_mem hl)
  exact ⟨hloads ▸ hint, (State.settledPower_kept _).flags _ hflag⟩

theorem State.restorePower_emergency {n : LaneId} (he : inp.emergency[n] = true) :
    ((s.restorePower inp).lane n).shut = true ∧
      ∀ a, s.laneOf a = some n → (s.lane n).shut = false → ((s.restorePower inp).arm a).locked = true := by
  have hsame := (s.restoring inp).interruptLoads_same
  have hlane : (s.restoring inp).interruptLoads.lane n = { s.lane n with emergency := inp.emergency[n] } := by
    rw [hsame]
    exact s.beginLive_lane inp n
  have hrun := State.restorePower_running inp htable
  refine ⟨?_, fun a ha hs => State.settledPower_locked hrun (n := n) ?_ ?_ ?_⟩
  · rw [State.restorePower_eq, State.settledPower_shut hrun, hlane]
    simp [he]
  · rw [hlane]
    exact he
  · rw [hlane]
    exact hs
  · rw [hsame]
    change (State.arm (s.beginLive inp) a).defn.map _ = _
    rw [State.beginLive_arm]
    exact ha

end

/-- Loss of supply leaves retained memory, and the attention output released (R206). -/
theorem State.losePower_keeps (s : State) : sameRetained s s.losePower ∧ s.losePower.attentionLine = false ∧
    (∀ n, (s.losePower.lane n).shut = (s.lane n).shut) ∧ ∀ a, (s.losePower.arm a).locked = (s.arm a).locked := by
  refine ⟨s.beginLive_sameRetained s.inputs, rfl, fun n => ?_, fun a => ?_⟩
  · exact (congrArg Lane.shut (s.beginLive_lane s.inputs n) :)
  · exact (congrArg Arm.locked (s.beginLive_arm s.inputs a) :)

/-- Settles O48: the interruption record by record, in a live state begun anew. -/
theorem supplyIsLostAndRestored : Obligations.SupplyIsLostAndRestored := by
  intro s htable
  obtain ⟨hretained, hline, hlanes, hlocks⟩ := s.losePower_keeps
  refine ⟨fun hp => ⟨s.losePower, event_powered hp, rfl, hretained, rfl, rfl, hline, hlanes, hlocks⟩, fun inp => ?_⟩
  have hint := (State.interruptLoads_sound (s.restoring_still inp)).toKept
  have hkept := hint.trans (State.settledPower_kept _)
  have hrecord := fun l (hl : l ∈ s.loads) => State.restorePower_record inp htable hl
  refine ⟨s.restorePower inp, rfl, hkept.powered, Kept.sameRetained (t := s.restoring inp)
      (s.beginLive_sameRetained inp) hkept,
    State.settledPower_fresh (State.restorePower_running inp htable)
      (State.interruptLoads_begun (s.beginLive_begun inp)),
    (congrArg Link.switches hkept.link :), (congrArg Link.sending hkept.link :), hkept.calibration,
    hkept.pressure.2, hkept.numbers, fun l hl => (hrecord l hl).1, fun l hl hrun => ?_,
    fun n he => State.restorePower_emergency inp htable he⟩
  obtain ⟨⟨m, hm, h⟩, hflag⟩ := (hrecord l hl).2 hrun
  exact ⟨m, hm, h.number, h.state, h.outcome, h.volume, h.overrun, h.stop, h.holds, h.count, hflag⟩

end Sys2Proof.Machine
end

section
/-! PROOFS. The reports of one record, arm or channel, field by field (O34). -/

namespace Sys2Proof.Machine

/-! ### Fields and texts -/

theorem optField_eq (k : String) (v : Option Chars) : optField k v = (v.map fun w => field k w).toList := by
  cases v <;> rfl

theorem optField_if (k : String) (p : Prop) [Decidable p] (v : Option Chars) :
    optField k (if p then v else none) = if p then (v.map fun w => field k w).toList else [] := by
  split
  · exact optField_eq k v
  · rfl

theorem optField_stopPhase (l : Load) : optField "PHASE" (l.stopPhase.map Phase.text) =
    if l.state = .flowing ∨ l.state = .held then [field "PHASE" l.phase.text] else [] := by
  by_cases h : l.state = .flowing ∨ l.state = .held <;> simp [Load.stopPhase, h, optField]

theorem AddEntry.text_eq (e : AddEntry) : e.text = joinWith ',' ([numText e.id, numText e.dose, numText e.tol,
    injText e.inj, numText e.due, numText e.fired, numText e.proven, numText e.missed, numText e.consec] ++
      (e.verdict.map AddVerdict.text).toList) := by
  unfold AddEntry.text
  cases e.verdict <;> rfl

theorem StopRecord.text_eq (r : StopRecord) : r.text = joinWith ',' [r.code.text, r.cls.text, r.detail.text,
    r.state.text, (match r.phase with | none => ['-'] | some p => p.text), numText r.v] := by
  unfold StopRecord.text
  cases r.phase <;> rfl

theorem loadFields_eq (l : Load) : loadFields l = loadReport l := by
  have hphase := optField_stopPhase l
  have hfrom := optField_if "FROM" (l.state = .admitting) (l.admitFrom.map AdmitFrom.text)
  have hpending := optField_if "PENDING" (l.state = .settling) (l.pendingOut.map PendingOutcome.text)
  unfold loadFields loadReport
  simp only [beq_iff_eq, hphase, hfrom, hpending, numberedFields_map, AddEntry.text_eq, Account.text, yesNo]
  simp only [optField_eq, Option.map_map, Function.comp_def, StopRecord.text_eq] <;> rfl

theorem Step.text_eq (p : Step) : p.text = joinWith ',' [(match p.kind with
    | .del => "DEL".toList
    | .rem => "REM".toList), numText p.vol, numText p.limit, numText p.rate] := by
  unfold Step.text
  cases p.kind <;> rfl

theorem recipeFields_eq (r : Recipe) : recipeFields r = recipeReport r := by
  unfold recipeFields recipeReport
  simp only [numberedFields_map, recipeStateText, Step.text_eq, RecipeAdd.text]
  cases r.name <;> simp only [Option.map_none, Option.map_some, Option.toList_none, Option.toList_some] <;> rfl

theorem permText_eq (u : Option PermUse) : permText u = match u with
    | none => ['-']
    | some u => (if u.level = .closed then "CLOSED".toList else "OPEN".toList) ++ ',' ::
        (if u.safety then "SAFETY".toList else "PLAIN".toList) := by
  cases u with
  | none => rfl
  | some u => rw [permText, joinWith_two, contactText_eq]

/-- The eight permissive entries, taken in order or by their index. -/
theorem permFields_eq (perms : Vector (Option PermUse) 8) :
    (perms.toList.zipIdx.map fun x => (keyN "PERM".toList x.2, permText x.1)) =
      (List.finRange 8).map fun k => ("PERM".toList ++ numText k.val, permText perms[k]) := by
  apply List.ext_getElem
  · simp
  · intro i h1 h2
    simp [keyN]

theorem armFields_eq (d : ArmDef) : armFields d = armReport d := by
  rw [armFields, permFields_eq]
  simp only [permText_eq]
  unfold armReport
  cases d.ethMeter <;> rfl

theorem Condition.text_eq (s : State) (a : ArmId) : (s.condition a).text =
    if (s.arm a).locked then "LOCKED".toList
    else if s.headIs a LoadState.inProgress then "ACTIVE".toList else "IDLE".toList := by
  unfold State.condition
  split
  · rfl
  · split <;> rfl

theorem dash_some (t : Chars) : dash (some t) = t := rfl

theorem dash_arm (v : Option ArmId) : dash (v.map armText) = match v with
    | none => ['-']
    | some a => armText a := by
  cases v <;> rfl

theorem dash_num (v : Option Nat) : dash (v.map numText) = match v with
    | none => ['-']
    | some n => numText n := by
  cases v <;> rfl

theorem dash_flag (v : Option Bool) : dash (v.map yesNo) = match v with
    | none => ['-']
    | some true => "YES".toList
    | some false => "NO".toList := by
  cases v with
  | none => rfl
  | some b => cases b <;> rfl

theorem dash_role (v : Option (ArmId × Role)) : dash (v.map fun x => roleText x.2) = match v with
    | none => ['-']
    | some (_, .base) => "BASE".toList
    | some (_, .ethanol) => "ETHANOL".toList := by
  cases v with
  | none => rfl
  | some b =>
    obtain ⟨a, r⟩ := b
    cases r <;> rfl

theorem dash_boundArm (v : Option (ArmId × Role)) : dash (v.map fun x => armText x.1) = match v with
    | none => ['-']
    | some (a, _) => armText a := by
  cases v <;> rfl

theorem dash_lock (v : Option (Cause × Detail)) : dash (v.map fun r => joinWith ',' [r.1.text, r.2.text]) =
    match v with
    | none => ['-']
    | some (c, det) => c.text ++ ',' :: det.text := by
  cases v <;> rfl

theorem dash_cause (v : Option Cause) : dash (v.map Cause.text) = match v with
    | none => ['-']
    | some c => c.text := by
  cases v <;> rfl

theorem dash_headNumber (v : Option Load) : dash (v.map fun l => numText l.number) = match v with
    | none => ['-']
    | some l => numText l.number := by
  cases v <;> rfl

theorem dash_headState (v : Option Load) : dash (v.map fun l => l.state.text) = match v with
    | none => ['-']
    | some l => l.state.text := by
  cases v <;> rfl

theorem Watch.text_eq (w : Watch) : w.text = match w with
    | .armed => "ARMED".toList
    | .raised => "RAISED".toList := by
  cases w <;> rfl

theorem ChanState.text_eq (x : ChanState) : x.text = match x with
    | .idle => "IDLE".toList
    | .firing => "FIRING".toList
    | .awaitProof => "AWAIT_PROOF".toList := by
  cases x <;> rfl

theorem Probe.text_eq (x : Probe) : x.text = match x with
    | .waiting => "WAITING".toList
    | .good => "GOOD".toList
    | .fault => "FAULT".toList := by
  cases x <;> rfl

/-- A block valve is energized while its lane is NORMAL (R61). -/
theorem Lane.block_eq (n : Lane) : onOff n.blockValve = if n.shut then "OFF".toList else "ON".toList := by
  unfold onOff Lane.blockValve
  cases n.shut <;> rfl

theorem statusFields_eq (s : State) (a : ArmId) : statusFields s a = statusReport s a := by
  unfold statusFields statusReport
  simp only [State.commissioned, Condition.text_eq, State.laneOf, dash_lock, dash_headNumber, dash_headState,
    Watch.text_eq, yesNo, laneStateText]
  rcases Option.eq_none_or_eq_some (s.arm a).defn with hd | ⟨d, hd⟩
  · simp only [hd, Option.map_none, Option.bind_none] <;> rfl
  · simp only [hd, Option.map_some, Option.bind_some, dash_cause, dash_some, Lane.block_eq] <;> rfl

/-! ### The requests -/

section
variable {f : List Chars} {s : State}

theorem exec_getLoad_some {n : Nat} {l : Load} (hs : s.ready) (hn : parseLoad f = .ok n) (hl : s.load n = some l) :
    exec (.getLoad f) s = .next (s.answered s (.ok (loadReport l ++
      [field "QB" (numText (s.flowAverage l.arm .base)), field "QE" (numText (s.flowAverage l.arm .ethanol))]))) := by
  refine (request_accepted hs hn (by simp [stateRefusal, hl])).trans ?_
  simp only [getLoadAnswer, hl, loadFields_eq]

theorem State.flowAverage_base (s : State) (a : ArmId) : s.flowAverage a .base = match (s.arm a).defn with
    | none => 0
    | some d => (s.meter d.baseMeter).qAvg := by
  unfold State.flowAverage
  cases (s.arm a).defn <;> rfl

theorem State.flowAverage_ethanol (s : State) (a : ArmId) :
    s.flowAverage a .ethanol = match (s.arm a).defn.bind (·.ethMeter) with
    | none => 0
    | some m => (s.meter m).qAvg := by
  unfold State.flowAverage
  cases (s.arm a).defn with
  | none => rfl
  | some d =>
    change ((d.ethMeter).map _).getD 0 = match d.ethMeter with | none => 0 | some m => _
    cases d.ethMeter <;> rfl

theorem vcf_eq (beta : Nat) (t : Int) : vcf beta t = 1000000 - (2 * ((beta : Int) * (t - 150)) + 10) / 20 := rfl

end

/-- Settles O34, report by report. -/
theorem recordsAreReported : Obligations.RecordsAreReported := by
  intro f s hs
  refine ⟨fun n hn => ⟨fun hl => request_refused hs hn (by simp [stateRefusal, hl]), fun l hl => ?_⟩,
    fun c hc => ⟨fun hr => request_refused hs hc (by simp [recipeRefusal, hr]), fun r hr => ?_⟩,
    fun a ha => ⟨fun hd => request_refused hs ha ?_, fun d hd => ?_, ?_, ?_⟩, fun i hi => ?_, fun j hj => ?_⟩
  · rw [exec_getLoad_some hs hn hl, State.flowAverage_base, State.flowAverage_ethanol] <;> rfl
  · refine (request_accepted hs hc (by simp [recipeRefusal, hr])).trans ?_
    simp only [getRecipeAnswer, hr, recipeFields_eq]
  · simp [notCommissionedRefusal, State.commissioned, hd]
  · refine (request_accepted hs ha (by simp [notCommissionedRefusal, State.commissioned, hd])).trans ?_
    simp only [getArmAnswer, hd, armFields_eq]
  · refine (request_accepted hs ha rfl).trans ?_
    simp only [armStatusAnswer, statusFields_eq]
  · refine (request_accepted hs ha rfl).trans ?_
    simp only [getPermissivesAccept, getPermissivesAnswer, dash_flag] <;> rfl
  · refine (request_accepted hs hi rfl).trans ?_
    simp only [getMeterAnswer, vcf_eq, dash_boundArm, dash_role, Probe.text_eq] <;> rfl
  · refine (request_accepted hs hj rfl).trans ?_
    simp only [getInjectorAnswer, dash_arm, dash_num, usedText, ChanState.text_eq, Watch.text_eq] <;> rfl

end Sys2Proof.Machine
end

section
/-! PROOFS. Text on the link: parts and joins, numbers, the frames of requests (O4, O5). -/

namespace Sys2Proof.Machine

/-! ### Parts of a text -/

theorem splitAtChar_ne_nil (c : Char) (t : Chars) : splitAtChar c t ≠ [] := by
  cases t with
  | nil => simp [splitAtChar]
  | cons x xs =>
    unfold splitAtChar
    split
    · simp
    · split <;> simp

theorem splitAtChar_cons_of_ne {c x : Char} {xs w : Chars} {ws : List Chars} (hx : x ≠ c)
    (h : splitAtChar c xs = w :: ws) : splitAtChar c (x :: xs) = (x :: w) :: ws := by
  rw [splitAtChar, if_neg hx, h]

/-- A text without the character is one part, and what stands before its first occurrence is the first part. -/
theorem splitAtChar_of_not_mem {c : Char} {w : Chars} (h : c ∉ w) : splitAtChar c w = [w] := by
  induction w with
  | nil => rfl
  | cons x xs ih =>
    rw [List.mem_cons, not_or] at h
    exact splitAtChar_cons_of_ne (Ne.symm h.1) (ih h.2)

theorem splitAtChar_append {c : Char} {w : Chars} (t : Chars) (h : c ∉ w) :
    splitAtChar c (w ++ c :: t) = w :: splitAtChar c t := by
  induction w with
  | nil => simp [splitAtChar]
  | cons x xs ih =>
    rw [List.mem_cons, not_or] at h
    exact splitAtChar_cons_of_ne (Ne.symm h.1) (ih h.2)

/-- The parts of texts joined by a character that none of them holds. -/
theorem splitAtChar_joinWith {c : Char} {ws : List Chars} (hne : ws ≠ []) (h : ∀ w ∈ ws, c ∉ w) :
    splitAtChar c (joinWith c ws) = ws := by
  induction ws with
  | nil => exact absurd rfl hne
  | cons w ws ih =>
    cases ws with
    | nil => exact splitAtChar_of_not_mem (h w (by simp))
    | cons v vs =>
      rw [joinWith, splitAtChar_append _ (h w (by simp)), ih (by simp) fun x hx => h x (by simp [hx])]
      simp

theorem joinWith_cons {c : Char} {w : Chars} {ws : List Chars} (h : ws ≠ []) :
    joinWith c (w :: ws) = w ++ c :: joinWith c ws := by
  cases ws with
  | nil => exact absurd rfl h
  | cons v vs => rfl

/-- The parts of a text hold the character nowhere, and joined they are the text. -/
theorem splitAtChar_spec (c : Char) (t : Chars) :
    joinWith c (splitAtChar c t) = t ∧ ∀ w ∈ splitAtChar c t, c ∉ w := by
  induction t with
  | nil => simp [splitAtChar, joinWith]
  | cons x xs ih =>
    obtain ⟨hjoin, hpart⟩ := ih
    by_cases hx : x = c
    · subst hx
      rw [splitAtChar, if_pos rfl, joinWith_cons (splitAtChar_ne_nil x xs), hjoin]
      refine ⟨rfl, fun w hw => ?_⟩
      rcases List.mem_cons.mp hw with rfl | hw
      · simp
      · exact hpart w hw
    · obtain ⟨w, ws, h⟩ := List.exists_cons_of_ne_nil (splitAtChar_ne_nil c xs)
      rw [splitAtChar_cons_of_ne hx h]
      rw [h] at hjoin hpart
      refine ⟨?_, fun v hv => ?_⟩
      · cases ws with
        | nil => exact congrArg (x :: ·) hjoin
        | cons v vs => exact congrArg (x :: ·) hjoin
      · rcases List.mem_cons.mp hv with rfl | hv
        · simp [Ne.symm hx, hpart w (by simp)]
        · exact hpart v (by simp [hv])

theorem tokenOk_space {t : Chars} (h : tokenOk t = true) : t ≠ [] ∧ ' ' ∉ t := by
  simp only [tokenOk, Bool.and_eq_true, Bool.not_eq_true', List.isEmpty_eq_false_iff, List.all_eq_true] at h
  refine ⟨h.1, fun hs => ?_⟩
  have := h.2 ' ' hs
  simp [tokenChar] at this

/-- The tokens of a body are those it was joined from (R200). -/
theorem tokens_joinWith {ts : List Chars} (h : ts.all tokenOk = true) : tokens (joinWith ' ' ts) = ts := by
  have hok := fun t (ht : t ∈ ts) => tokenOk_space (List.all_eq_true.mp h t ht)
  cases ts with
  | nil => rfl
  | cons t rest =>
    rw [tokens, splitAtChar_joinWith (by simp) fun w hw => (hok w hw).2, List.filter_eq_self]
    intro w hw
    simpa using (hok w hw).1

/-! ### Numbers -/

theorem isDecimal_eq (c : Char) : isDecimal c = c.isDigit := rfl

theorem num?_of_digits {t : Chars} (hne : t ≠ []) (h : ∀ c ∈ t, c.isDigit = true) :
    num? t = some (Nat.ofDigitChars 10 t 0) := by
  rw [num?, if_pos (by simpa [isDecimal_eq, hne] using h)]
  rfl

/-- A number written in decimal digits is read back. -/
theorem num?_numText (n : Nat) : num? (numText n) = some n := by
  rw [numText, num?_of_digits Nat.toDigits_ne_nil fun c hc => Nat.isDigit_of_mem_toDigits (by omega) (by omega) hc,
    Nat.ofDigitChars_toDigits (by omega) (by omega)]

theorem num?_none {t : Chars} (h : t = [] ∨ ∃ c ∈ t, c.isDigit = false) : num? t = none := by
  rw [num?, if_neg]
  rcases h with rfl | ⟨c, hc, hd⟩
  · simp
  · intro hall
    simp only [Bool.and_eq_true, List.all_eq_true] at hall
    rw [← isDecimal_eq, hall.2 c hc] at hd
    cases hd

theorem twoDigits_decimal (n : Nat) : (twoDigits n).all isDecimal = true := by
  have h : ∀ d : Fin 10, isDecimal (Nat.digitChar d) = true := by decide
  have h1 := h ⟨n / 10 % 10, Nat.mod_lt _ (by omega)⟩
  have h2 := h ⟨n % 10, Nat.mod_lt _ (by omega)⟩
  simp only at h1 h2
  simp [twoDigits, h1, h2]

/-- The address part of a frame is read back. -/
theorem num?_twoDigits {n : Nat} (h : n ≤ 31) : num? (twoDigits n) = some n := by
  have hall : ∀ k : Fin 32, num? (twoDigits k) = some k.val := by decide
  exact hall ⟨n, by omega⟩

theorem hexValue?_hexChar {n : Nat} (h : n < 16) : hexValue? (hexChar n) = some n := by
  have hall : ∀ k : Fin 16, hexValue? (hexChar k) = some k.val := by decide
  exact hall ⟨n, h⟩

/-- The check digits of a register are read back (R199). -/
theorem hexNum?_checkDigits (r : BitVec 16) : hexNum? (checkDigits r) = some r.toNat := by
  have hr := r.isLt
  simp only [hexNum?, checkDigits, List.foldl_cons, List.foldl_nil,
    hexValue?_hexChar (show r.toNat / 4096 % 16 < 16 by omega),
    hexValue?_hexChar (show r.toNat / 256 % 16 < 16 by omega),
    hexValue?_hexChar (show r.toNat / 16 % 16 < 16 by omega),
    hexValue?_hexChar (show r.toNat % 16 < 16 by omega), Option.some.injEq]
  omega

/-! ### Frames (R199) -/

/-- The tests on a frame given as address, body and four check characters. -/
theorem frameBody?_eq (address sent : Nat) (body check : Chars) (hc : check.length = 4) :
    frameBody? address (twoDigits sent ++ body ++ check) =
      if hexNum? check ≠ some (crc16 (twoDigits sent ++ body)).toNat then none
      else if num? (twoDigits sent) ≠ some address then none
      else some body := by
  have hlen : (twoDigits sent ++ body ++ check).length - 4 = (twoDigits sent ++ body).length := by
    simp [hc]
    omega
  have htwo : (twoDigits sent ++ body).take 2 = twoDigits sent := rfl
  have hdrop : (twoDigits sent ++ body).drop 2 = body := rfl
  unfold frameBody?
  dsimp only
  rw [hlen, List.take_left, List.drop_left, if_neg (by simp [hc, twoDigits]), htwo, hdrop,
    twoDigits_decimal]
  simp

theorem frameCommand_invalid {address : Nat} {sw : Switches} {frame : Chars} (h : frameBody? address frame = none) :
    frameCommand address sw frame = .invalidFrame frame := by
  simp [frameCommand, h]

/-- Settles O5: the check characters are tested before the address. -/
theorem testedFramesAreInvalid : Obligations.TestedFramesAreInvalid := by
  refine ⟨fun mine other sw body hm ho hne => frameCommand_invalid ?_,
    fun address sw body check hlen hcheck => frameCommand_invalid ?_⟩
  · rw [frameInside, frameBody?_eq _ _ _ _ rfl, hexNum?_checkDigits, num?_twoDigits ho]
    simp [Ne.symm hne]
  · rw [frameBody?_eq _ _ _ _ hlen, if_pos hcheck]

/-- Every command that a valid frame brings comes back from its tokens (R200). -/
theorem requestTokens_command : ∀ i : Instr, Laws.RequestTokens.Statement i
  | .authorize fields => Laws.RequestTokens.authorize fields
  | .amend fields => Laws.RequestTokens.amend fields
  | .cancel fields => Laws.RequestTokens.cancel fields
  | .hold fields => Laws.RequestTokens.hold fields
  | .resume fields => Laws.RequestTokens.resume fields
  | .endLoad fields => Laws.RequestTokens.endLoad fields
  | .getLoad fields => Laws.RequestTokens.getLoad fields
  | .retireLoad fields => Laws.RequestTokens.retireLoad fields
  | .listLoads fields => Laws.RequestTokens.listLoads fields
  | .storeRecipe fields => Laws.RequestTokens.storeRecipe fields
  | .getRecipe fields => Laws.RequestTokens.getRecipe fields
  | .retireRecipe fields => Laws.RequestTokens.retireRecipe fields
  | .listRecipes fields => Laws.RequestTokens.listRecipes fields
  | .setArm fields => Laws.RequestTokens.setArm fields
  | .getArm fields => Laws.RequestTokens.getArm fields
  | .decommissionArm fields => Laws.RequestTokens.decommissionArm fields
  | .getArmStatus fields => Laws.RequestTokens.getArmStatus fields
  | .setMeter fields => Laws.RequestTokens.setMeter fields
  | .getMeter fields => Laws.RequestTokens.getMeter fields
  | .setInjector fields => Laws.RequestTokens.setInjector fields
  | .getInjector fields => Laws.RequestTokens.getInjector fields
  | .setHeader fields => Laws.RequestTokens.setHeader fields
  | .getHeader fields => Laws.RequestTokens.getHeader fields
  | .setCause fields => Laws.RequestTokens.setCause fields
  | .getCauses fields => Laws.RequestTokens.getCauses fields
  | .getPermissives fields => Laws.RequestTokens.getPermissives fields
  | .resetArm fields => Laws.RequestTokens.resetArm fields
  | .resetLane fields => Laws.RequestTokens.resetLane fields
  | .getAttention fields => Laws.RequestTokens.getAttention fields
  | .clearAttention fields => Laws.RequestTokens.clearAttention fields
  | .setAttentionEnable fields => Laws.RequestTokens.setAttentionEnable fields
  | .setLink fields => Laws.RequestTokens.setLink fields
  | .getIdent fields => Laws.RequestTokens.getIdent fields
  | .restart fields switches => Laws.RequestTokens.restart fields switches
  | .factoryClear fields => Laws.RequestTokens.factoryClear fields
  | .unknownRequest tokens => Laws.RequestTokens.unknownRequest tokens
  | .invalidFrame frame => Laws.RequestTokens.invalidFrame frame
  | .frameTimeout => Laws.RequestTokens.frameTimeout
  | .startPress arm => Laws.RequestTokens.startPress arm
  | .stopPress arm => Laws.RequestTokens.stopPress arm
  | .meterPulse meter => Laws.RequestTokens.meterPulse meter
  | .temperatureSample meter value => Laws.RequestTokens.temperatureSample meter value
  | .flowReading meter => Laws.RequestTokens.flowReading meter
  | .rampTick arm => Laws.RequestTokens.rampTick arm
  | .permissiveInputChange arm input level => Laws.RequestTokens.permissiveInputChange arm input level
  | .emergencyStopActive lane => Laws.RequestTokens.emergencyStopActive lane
  | .emergencyStopRelease lane => Laws.RequestTokens.emergencyStopRelease lane
  | .headerPressureInputChange level => Laws.RequestTokens.headerPressureInputChange level
  | .calibrationSwitchChange level => Laws.RequestTokens.calibrationSwitchChange level
  | .proofArrival injector => Laws.RequestTokens.proofArrival injector
  | .proofInputOpen injector => Laws.RequestTokens.proofInputOpen injector
  | .supplyLowInputChange injector low => Laws.RequestTokens.supplyLowInputChange injector low
  | .pulseWidthExpiry injector => Laws.RequestTokens.pulseWidthExpiry injector
  | .proofTimerExpiry injector => Laws.RequestTokens.proofTimerExpiry injector
  | .noFlowTimerExpiry arm role => Laws.RequestTokens.noFlowTimerExpiry arm role
  | .settleTimerExpiry arm => Laws.RequestTokens.settleTimerExpiry arm
  | .maximumSettleExpiry arm => Laws.RequestTokens.maximumSettleExpiry arm
  | .linkTimeoutExpiry => Laws.RequestTokens.linkTimeoutExpiry
  | .powerRestore inputs => Laws.RequestTokens.powerRestore inputs
  | .admission => Laws.RequestTokens.admission
  | .loadEntersEnded arm => Laws.RequestTokens.loadEntersEnded arm
  | .frameStartCharacter => Laws.RequestTokens.frameStartCharacter
  | .frameLengthLimit => Laws.RequestTokens.frameLengthLimit
  | .supplyLoss => Laws.RequestTokens.supplyLoss
  | .responseSent => Laws.RequestTokens.responseSent

/-- Settles O4: the frame's tests are passed, and its tokens bring the request. -/
theorem frameBringsTheRequest : Obligations.FrameBringsTheRequest := by
  intro address sw i frame _ haddress hwell hframe
  obtain ⟨ts, hts, rfl⟩ := Option.map_eq_some_iff.mp hframe
  have hall : ts.all tokenOk = true := by
    simp only [Instr.wellFormed, hts, Bool.and_eq_true] at hwell
    exact hwell.1.1
  have hbody : frameBody? address (frameInside address (joinWith ' ' ts)) = some (joinWith ' ' ts) := by
    rw [frameInside, frameBody?_eq _ _ _ _ rfl, hexNum?_checkDigits, num?_twoDigits haddress]
    simp
  rw [frameCommand, hbody]
  dsimp only
  rw [tokens_joinWith hall]
  exact requestTokens_command i sw ts hwell hts

end Sys2Proof.Machine
end

section
/-! PROOFS. The fields of a request: keywords, values, form and range (O9). -/

namespace Sys2Proof.Machine

/-! ### One field (R200(b)) -/

theorem fieldOf?_join {k v : Chars} (hk : k ≠ []) (hv : v ≠ []) (hek : '=' ∉ k) (hev : '=' ∉ v) :
    fieldOf? (k ++ '=' :: v) = some (k, v) := by
  simp [fieldOf?, splitAtChar_append v hek, splitAtChar_of_not_mem hev, hk, hv]

theorem fieldOf?_some {t : Chars} {f : Chars × Chars} (h : fieldOf? t = some f) :
    t = f.1 ++ '=' :: f.2 ∧ f.2 ≠ [] ∧ '=' ∉ f.1 ∧ '=' ∉ f.2 := by
  obtain ⟨hjoin, hpart⟩ := splitAtChar_spec '=' t
  unfold fieldOf? at h
  split at h
  case h_1 k v hs =>
    rw [hs] at hjoin hpart
    split at h
    · cases h
    · cases h
      simp_all [joinWith]
  case h_2 => cases h

/-- A field carries the keyword that stands before its "=". -/
theorem keyword_isPrefixOf {t key : Chars} {f : Chars × Chars} (h : fieldOf? t = some f) (hkey : '=' ∉ key) :
    (key ++ ['=']).isPrefixOf t = (f.1 == key) := by
  obtain ⟨rfl, -, hf, -⟩ := fieldOf?_some h
  rw [Bool.eq_iff_iff, List.isPrefixOf_iff_prefix, beq_iff_eq]
  constructor
  · rintro ⟨r, hr⟩
    have hsplit := congrArg (splitAtChar '=') hr
    rw [List.append_assoc, List.singleton_append, splitAtChar_append _ hkey, splitAtChar_append _ hf] at hsplit
    exact (List.cons.inj hsplit).1.symm
  · rintro rfl
    exact ⟨f.2, by simp⟩

theorem field_of_keyword {key v : Chars} {f : Chars × Chars} (h : fieldOf? (key ++ '=' :: v) = some f)
    (hkey : '=' ∉ key) : f = (key, v) := by
  have hk := keyword_isPrefixOf h hkey
  rw [List.isPrefixOf_iff_prefix.mpr ⟨v, by simp⟩] at hk
  have hf : f.1 = key := beq_iff_eq.mp hk.symm
  obtain ⟨ht, -⟩ := fieldOf?_some h
  rw [hf, List.append_cancel_left_eq, List.cons.injEq] at ht
  exact Prod.ext hf ht.2.symm

/-! ### The fields of the tokens -/

theorem fieldsOf?_iff {ts : List Chars} {fs : Fields} :
    fieldsOf? ts = some fs ↔ List.Forall₂ (fun t f => fieldOf? t = some f) ts fs := by
  induction ts generalizing fs with
  | nil => simp [fieldsOf?, eq_comm]
  | cons t ts ih =>
    rw [List.forall₂_cons_left_iff, fieldsOf?]
    constructor
    · intro h
      split at h
      case h_1 f gs hf hgs => exact ⟨f, gs, hf, ih.mp hgs, (Option.some.inj h).symm⟩
      case h_2 => cases h
    · rintro ⟨f, gs, hf, hgs, rfl⟩
      rw [hf, ih.mpr hgs]

theorem field_mem {ts : List Chars} {fs : Fields} (h : List.Forall₂ (fun t f => fieldOf? t = some f) ts fs)
    {t : Chars} (ht : t ∈ ts) : ∃ f ∈ fs, fieldOf? t = some f := by
  induction h with
  | nil => cases ht
  | cons hf _ ih =>
    rcases List.mem_cons.mp ht with rfl | ht
    · exact ⟨_, List.mem_cons_self, hf⟩
    · obtain ⟨f, hmem, hf⟩ := ih ht
      exact ⟨f, List.mem_cons_of_mem _ hmem, hf⟩

theorem keyword_count {ts : List Chars} {fs : Fields} (h : List.Forall₂ (fun t f => fieldOf? t = some f) ts fs)
    {key : Chars} (hkey : '=' ∉ key) :
    (ts.filter fun t => (key ++ ['=']).isPrefixOf t).length = fs.count key := by
  induction h with
  | nil => rfl
  | cons hf _ ih =>
    rw [Fields.count, List.filter_cons, List.filter_cons, keyword_isPrefixOf hf hkey]
    split
    · rw [List.length_cons, List.length_cons, ih, Fields.count]
    · exact ih

theorem value_of_count {fs : Fields} {k v : Chars} (hc : fs.count k = 1) (hm : (k, v) ∈ fs) :
    fs.value k = some v := by
  obtain ⟨x, hx⟩ := List.length_eq_one_iff.mp hc
  have hmem : (k, v) ∈ fs.filter fun f => f.1 == k := List.mem_filter.mpr ⟨hm, by simp⟩
  rw [hx, List.mem_singleton] at hmem
  rw [Fields.value, ← List.head?_filter, hx, ← hmem]
  rfl

theorem value_of_count_zero {fs : Fields} {k : Chars} (hc : fs.count k = 0) : fs.value k = none := by
  rw [Fields.value, ← List.head?_filter, List.length_eq_zero_iff.mp hc]
  rfl

theorem count_of_perm {fs gs : Fields} (h : fs.Perm gs) (k : Chars) : fs.count k = gs.count k :=
  (h.filter _).length_eq

/-- The form of a request: every token a field, and the keywords as its rule asks. -/
theorem readFields_ok {r o : List String} {ts : List Chars} {fs : Fields} :
    readFields r o ts = .ok fs ↔
      List.Forall₂ (fun t f => fieldOf? t = some f) ts fs ∧
        fs.formed (r.map String.toList) (o.map String.toList) = true := by
  rw [← fieldsOf?_iff, readFields]
  cases h : fieldsOf? ts with
  | none => simp
  | some gs =>
    dsimp only
    split
    · simp only [Except.ok.injEq, Option.some.injEq]
      exact ⟨fun h => ⟨h, h ▸ ‹_›⟩, fun h => h.1⟩
    · simp only [reduceCtorEq, Option.some.injEq, false_iff, not_and]
      rintro rfl
      assumption

theorem readFields_error {r o : List String} {ts : List Chars} {e : Code} (h : readFields r o ts = .error e) :
    e = .format := by
  unfold readFields at h
  split at h
  · cases h
    rfl
  · split at h <;> cases h
    rfl

theorem formed_iff {fs : Fields} {r o : List Chars} :
    fs.formed r o = true ↔
      (∀ k ∈ r, fs.count k = 1) ∧ (∀ k ∈ o, fs.count k ≤ 1) ∧ ∀ f ∈ fs, f.1 ∈ r ++ o := by
  simp [Fields.formed, and_assoc]

theorem num_of_value {fs : Fields} {k : String} {n : Nat} (h : (fs.value k.toList).bind num? = some n) :
    fs.num k = .ok n := by
  rw [Fields.num, h]

theorem num_error {fs : Fields} {k : String} (h : (fs.value k.toList).bind num? = none) :
    fs.num k = .error .format := by
  rw [Fields.num, h]

/-! ### A request that carries LOAD alone (R23 to R28) -/

theorem parseLoad_format {ts : List Chars}
    (h : ∀ fs, readFields ["LOAD"] [] ts = .ok fs → (fs.value "LOAD".toList).bind num? = none) :
    parseLoad ts = .error .format := by
  unfold parseLoad
  cases hr : readFields ["LOAD"] [] ts with
  | error e =>
    cases readFields_error hr
    rfl
  | ok fs =>
    change (fs.num "LOAD" >>= _) = _
    rw [num_error (h fs hr)]
    rfl

theorem parseLoad_of_num {ts : List Chars} {fs : Fields} {n : Nat} (hr : readFields ["LOAD"] [] ts = .ok fs)
    (hn : fs.num "LOAD" = .ok n) :
    parseLoad ts = if 1 ≤ n ∧ n ≤ 999999 then .ok n else .error .range := by
  unfold parseLoad
  rw [hr]
  change (fs.num "LOAD" >>= _) = _
  rw [hn]
  by_cases hw : 1 ≤ n ∧ n ≤ 999999
  · rw [if_pos hw]
    change (inRange (within 1 999999 n) >>= _) = _
    rw [show within 1 999999 n = true by simp [within, hw.1, hw.2]]
    rfl
  · rw [if_neg hw]
    change (inRange (within 1 999999 n) >>= _) = _
    rw [show within 1 999999 n = false by simp [within]; omega]
    rfl

/-! ### AUTHORIZE (R17, checks 1 and 2) -/

theorem parseAuthorize_format {ts : List Chars}
    (h : ∀ fs, readFields ["LOAD", "ARM", "RECIPE", "PRESET"] ["TAG"] ts = .ok fs →
      ∃ k ∈ ["LOAD", "ARM", "RECIPE", "PRESET"], (fs.value k.toList).bind num? = none) :
    parseAuthorize ts = .error .format := by
  unfold parseAuthorize
  cases hr : readFields ["LOAD", "ARM", "RECIPE", "PRESET"] ["TAG"] ts with
  | error e =>
    cases readFields_error hr
    rfl
  | ok fs =>
    obtain ⟨k, hk, hv⟩ := h fs hr
    have hnum : ∀ j : String, fs.num j = .error .format ∨ ∃ n, fs.num j = .ok n := fun j => by
      unfold Fields.num
      split
      · exact .inr ⟨_, rfl⟩
      · exact .inl rfl
    have hbad := num_error hv
    change (fs.num "LOAD" >>= _) = _
    rcases hnum "LOAD" with h1 | ⟨n1, h1⟩
    · rw [h1]
      rfl
    rw [h1]
    change (fs.num "ARM" >>= _) = _
    rcases hnum "ARM" with h2 | ⟨n2, h2⟩
    · rw [h2]
      rfl
    rw [h2]
    change (fs.num "RECIPE" >>= _) = _
    rcases hnum "RECIPE" with h3 | ⟨n3, h3⟩
    · rw [h3]
      rfl
    rw [h3]
    change (fs.num "PRESET" >>= _) = _
    rcases hnum "PRESET" with h4 | ⟨n4, h4⟩
    · rw [h4]
      rfl
    simp only [List.mem_cons, List.not_mem_nil, or_false] at hk
    rcases hk with rfl | rfl | rfl | rfl <;> simp_all

theorem tagOk_iff {tag : Option Chars} (hv : ∀ v, tag = some v → v ≠ [] ∧ '=' ∉ v) :
    (tag.all fun t => within 1 16 t.length && t.all tagChar) = true ↔
      ∀ v ∈ tag, v.length ≤ 16 ∧ ∀ c ∈ v, '!' ≤ c ∧ c ≤ '~' := by
  cases tag with
  | none => simp
  | some v =>
    obtain ⟨hne, heq⟩ := hv v rfl
    have hlen := List.length_pos_iff.mpr hne
    have hchar : v.all tagChar = true ↔ ∀ c ∈ v, '!' ≤ c ∧ c ≤ '~' := by
      rw [List.all_eq_true]
      refine forall_congr' fun c => forall_congr' fun hc => ?_
      simp [tagChar, show c ≠ '=' from fun h => heq (h ▸ hc)]
    rw [Option.all_some, Bool.and_eq_true, hchar]
    simp only [within, Option.mem_some_iff, forall_eq', Bool.and_eq_true, decide_eq_true_eq]
    exact and_congr_left fun _ => ⟨fun h => h.2, fun h => ⟨hlen, h⟩⟩

theorem parseAuthorize_of_fields {ts : List Chars} {fs : Fields} {load arm recipe preset : Nat} {tag : Option Chars}
    (hr : readFields ["LOAD", "ARM", "RECIPE", "PRESET"] ["TAG"] ts = .ok fs)
    (hload : fs.num "LOAD" = .ok load) (harm : fs.num "ARM" = .ok arm) (hrecipe : fs.num "RECIPE" = .ok recipe)
    (hpreset : fs.num "PRESET" = .ok preset) (htag : fs.value "TAG".toList = tag)
    (hv : ∀ v, tag = some v → v ≠ [] ∧ '=' ∉ v) :
    parseAuthorize ts =
      if h : 1 ≤ arm ∧ arm ≤ 8 then
        if 1 ≤ load ∧ load ≤ 999999 ∧ 1 ≤ recipe ∧ recipe ≤ 999 ∧ 100 ≤ preset ∧ preset ≤ 60000 ∧
            ∀ v ∈ tag, v.length ≤ 16 ∧ ∀ c ∈ v, '!' ≤ c ∧ c ≤ '~' then
          .ok { load := load, arm := ⟨arm - 1, by omega⟩, recipe := recipe, preset := preset, tag := tag }
        else .error .range
      else .error .range := by
  have hparse : parseAuthorize ts = (do
      inRange (within 1 999999 load)
      let a ← toId 8 arm
      inRange (within 1 999 recipe)
      inRange (within 100 60000 preset)
      inRange (tag.all fun t => within 1 16 t.length && t.all tagChar)
      return { load := load, arm := a, recipe := recipe, preset := preset, tag := tag }) := by
    unfold parseAuthorize
    rw [hr]
    change (fs.num "LOAD" >>= _) = _
    rw [hload]
    change (fs.num "ARM" >>= _) = _
    rw [harm]
    change (fs.num "RECIPE" >>= _) = _
    rw [hrecipe]
    change (fs.num "PRESET" >>= _) = _
    rw [hpreset, ← htag]
    rfl
  rw [hparse]
  have hrange : ∀ (b : Bool) {α : Type} (g : Unit → Except Code α),
      (inRange b >>= g) = if b = true then g () else .error .range := fun b α g => by cases b <;> rfl
  simp only [hrange]
  by_cases ha : 1 ≤ arm ∧ arm ≤ 8
  · have hid : toId 8 arm = .ok ⟨arm - 1, by omega⟩ := dif_pos ha
    rw [dif_pos ha, hid]
    change (if within 1 999999 load = true then (if _ then _ else _) else _) = _
    rw [← ite_and, ← ite_and, ← ite_and]
    refine if_congr ?_ rfl rfl
    rw [tagOk_iff hv]
    simp only [within, Bool.and_eq_true, decide_eq_true_eq, and_assoc]
  · have hid : toId 8 arm = .error .range := dif_neg ha
    rw [dif_neg ha, hid]
    change (if _ then Except.error Code.range else _) = _
    exact ite_self _

/-- The fields of AUTHORIZE in the order of its rule. -/
def authorizeFields (load arm recipe preset : Nat) (tag : Option Chars) : Fields :=
  [("LOAD".toList, numText load), ("ARM".toList, numText arm), ("RECIPE".toList, numText recipe),
    ("PRESET".toList, numText preset)] ++ (tag.map fun v => ("TAG".toList, v)).toList

theorem numText_field (key : Chars) (hk : key ≠ []) (hek : '=' ∉ key) (n : Nat) :
    fieldOf? (key ++ '=' :: numText n) = some (key, numText n) := by
  refine fieldOf?_join hk Nat.toDigits_ne_nil hek fun h => ?_
  have := Nat.isDigit_of_mem_toDigits (by omega) (by omega) h
  simp at this

theorem authorizeFields_read (load arm recipe preset : Nat) {tag : Option Chars}
    (hv : ∀ v, tag = some v → v ≠ [] ∧ '=' ∉ v) :
    List.Forall₂ (fun t f => fieldOf? t = some f)
      (["LOAD=".toList ++ numText load, "ARM=".toList ++ numText arm,
        "RECIPE=".toList ++ numText recipe, "PRESET=".toList ++ numText preset] ++
        (tag.map fun v => "TAG=".toList ++ v).toList)
      (authorizeFields load arm recipe preset tag) := by
  refine .cons (numText_field "LOAD".toList (by simp) (by decide) load) <|
    .cons (numText_field "ARM".toList (by simp) (by decide) arm) <|
    .cons (numText_field "RECIPE".toList (by simp) (by decide) recipe) <|
    .cons (numText_field "PRESET".toList (by simp) (by decide) preset) ?_
  cases tag with
  | none => exact .nil
  | some v =>
    obtain ⟨hne, heq⟩ := hv v rfl
    exact .cons (fieldOf?_join (k := "TAG".toList) (by simp) hne (by decide) heq) .nil

theorem parseAuthorize_of_perm {load arm recipe preset : Nat} {tag : Option Chars} {fs : Fields} {ts : List Chars}
    (hv : ∀ v, tag = some v → v ≠ [] ∧ '=' ∉ v) (h : List.Forall₂ (fun t f => fieldOf? t = some f) ts fs)
    (hp : fs.Perm (authorizeFields load arm recipe preset tag)) :
    readFields ["LOAD", "ARM", "RECIPE", "PRESET"] ["TAG"] ts = .ok fs ∧ fs.num "LOAD" = .ok load ∧
      fs.num "ARM" = .ok arm ∧ fs.num "RECIPE" = .ok recipe ∧ fs.num "PRESET" = .ok preset ∧
      fs.value "TAG".toList = tag := by
  have hone : ∀ k ∈ ["LOAD", "ARM", "RECIPE", "PRESET"].map String.toList, fs.count k = 1 := by
    intro k hk
    rw [count_of_perm hp]
    simp only [List.map_cons, List.map_nil, List.mem_cons, List.not_mem_nil, or_false] at hk
    rcases hk with rfl | rfl | rfl | rfl <;> cases tag <;> rfl
  have htag : fs.count "TAG".toList = tag.toList.length := by
    rw [count_of_perm hp]
    cases tag <;> rfl
  have hnum : ∀ {k : String} {n : Nat}, k.toList ∈ ["LOAD", "ARM", "RECIPE", "PRESET"].map String.toList →
      (k.toList, numText n) ∈ authorizeFields load arm recipe preset tag → fs.num k = .ok n := by
    intro k n hk hm
    refine num_of_value ?_
    rw [value_of_count (hone _ hk) (hp.mem_iff.mpr hm)]
    exact num?_numText n
  refine ⟨readFields_ok.mpr ⟨h, formed_iff.mpr ⟨hone, ?_, ?_⟩⟩,
    hnum (by simp) (by simp [authorizeFields]), hnum (by simp) (by simp [authorizeFields]),
    hnum (by simp) (by simp [authorizeFields]), hnum (by simp) (by simp [authorizeFields]), ?_⟩
  · simp only [List.map_cons, List.map_nil, List.mem_singleton, forall_eq, htag]
    cases tag <;> simp
  · intro f hf
    rw [hp.mem_iff] at hf
    cases tag <;> simp [authorizeFields] at hf ⊢ <;> aesop
  · cases tag with
    | none => exact value_of_count_zero htag
    | some v => exact value_of_count htag (hp.mem_iff.mpr (by simp [authorizeFields]))

/-- What a request of the right form cannot hold: a keyword too often or not at all, an unknown keyword, a value that
is not in decimal digits, a tag that is no value. -/
theorem authorize_misformed {ts : List Chars} {fs : Fields}
    (hr : readFields ["LOAD", "ARM", "RECIPE", "PRESET"] ["TAG"] ts = .ok fs)
    (hbad : (∃ key ∈ ["LOAD", "ARM", "RECIPE", "PRESET"],
        (ts.filter fun t => (key.toList ++ ['=']).isPrefixOf t).length ≠ 1) ∨
      2 ≤ (ts.filter fun t => ("TAG".toList ++ ['=']).isPrefixOf t).length ∨
      (∃ t ∈ ts, ∀ key ∈ ["LOAD", "ARM", "RECIPE", "PRESET", "TAG"],
        (key.toList ++ ['=']).isPrefixOf t = false) ∨
      (∃ key ∈ ["LOAD", "ARM", "RECIPE", "PRESET"], ∃ v, key.toList ++ '=' :: v ∈ ts ∧
        (v = [] ∨ ∃ c ∈ v, c.isDigit = false)) ∨
      ∃ v, "TAG=".toList ++ v ∈ ts ∧ (v = [] ∨ '=' ∈ v)) :
    ∃ k ∈ ["LOAD", "ARM", "RECIPE", "PRESET"], (fs.value k.toList).bind num? = none := by
  obtain ⟨hread, hformed⟩ := readFields_ok.mp hr
  obtain ⟨hone, htag, hkeys⟩ := formed_iff.mp hformed
  have hkey : ∀ k ∈ ["LOAD", "ARM", "RECIPE", "PRESET"], '=' ∉ k.toList := by decide
  rcases hbad with ⟨key, hk, hc⟩ | hc | ⟨t, ht, hno⟩ | ⟨key, hk, v, ht, hv⟩ | ⟨v, ht, hv⟩
  · rw [keyword_count hread (hkey key hk)] at hc
    exact absurd (hone _ (List.mem_map_of_mem hk)) hc
  · rw [keyword_count hread (by decide)] at hc
    exact absurd (htag "TAG".toList (by simp)) (by omega)
  · obtain ⟨f, hf, hfield⟩ := field_mem hread ht
    have hall : ∀ key ∈ ["LOAD", "ARM", "RECIPE", "PRESET", "TAG"], f.1 ≠ key.toList := by
      intro key hk
      have hpre := hno key hk
      rw [keyword_isPrefixOf hfield ((by decide : ∀ k ∈ ["LOAD", "ARM", "RECIPE", "PRESET", "TAG"], '=' ∉ k.toList)
        key hk)] at hpre
      simpa using hpre
    have hin := hkeys f hf
    simp only [List.map_cons, List.map_nil, List.cons_append, List.nil_append, List.mem_cons, List.not_mem_nil,
      or_false] at hin
    rcases hin with hin | hin | hin | hin | hin <;> exact absurd hin (hall _ (by simp))
  · obtain ⟨f, hf, hfield⟩ := field_mem hread ht
    obtain rfl := field_of_keyword hfield (hkey key hk)
    refine ⟨key, hk, ?_⟩
    rw [value_of_count (hone _ (List.mem_map_of_mem hk)) hf]
    exact num?_none hv
  · obtain ⟨f, hf, hfield⟩ := field_mem hread ht
    obtain rfl := field_of_keyword (key := "TAG".toList) hfield (by decide)
    obtain ⟨-, hne, -, heq⟩ := fieldOf?_some hfield
    rcases hv with hv | hv
    · exact absurd hv hne
    · exact absurd hv heq

/-- Settles O9: the form is that of the fields read, whose values do not depend on their order. -/
theorem numberFieldsAreRead : Obligations.NumberFieldsAreRead := by
  refine ⟨fun n => ?_, fun ts h => parseLoad_format fun fs hr => ?_, fun v hv => parseLoad_format fun fs hr => ?_,
    fun ts h => parseAuthorize_format fun fs hr => authorize_misformed hr h, fun load arm recipe preset tag ts hv hp => ?_⟩
  · have hfield := numText_field "LOAD".toList (by simp) (by decide) n
    refine parseLoad_of_num (fs := [("LOAD".toList, numText n)])
      (readFields_ok.mpr ⟨.cons hfield .nil, formed_iff.mpr (by simp [Fields.count])⟩) (num_of_value ?_)
    exact num?_numText n
  · obtain ⟨hread, hformed⟩ := readFields_ok.mp hr
    obtain ⟨hone, -, hkeys⟩ := formed_iff.mp hformed
    have hc : fs.count "LOAD".toList = 1 := hone _ (by simp)
    have hlen : fs.count "LOAD".toList = fs.length := by
      rw [Fields.count, List.filter_eq_self.mpr fun f hf => by simpa using hkeys f hf]
    rcases h with h | h
    · exact absurd ((keyword_count hread (key := "LOAD".toList) (by decide)).trans hc) h
    · rw [hread.length_eq] at h
      omega
  · obtain ⟨hread, hformed⟩ := readFields_ok.mp hr
    obtain ⟨hone, -, -⟩ := formed_iff.mp hformed
    obtain ⟨f, hf, hfield⟩ := field_mem hread (List.mem_singleton_self _)
    obtain rfl := field_of_keyword (key := "LOAD".toList) hfield (by decide)
    rw [value_of_count (hone _ (by simp)) hf]
    exact num?_none hv
  · obtain ⟨fs, hread, hperm⟩ := List.perm_comp_forall₂ hp (authorizeFields_read load arm recipe preset hv)
    obtain ⟨hr, hload, harm, hrecipe, hpreset, htag⟩ := parseAuthorize_of_perm hv hread hperm
    exact parseAuthorize_of_fields hr hload harm hrecipe hpreset htag hv

end Sys2Proof.Machine

end

section
/-! PROOFS. The flow split of one arm in full, with the grant it ends with (R131, R151, R153), and the ramp tick (O45). -/

namespace Sys2Proof.Machine

/-! ### The computation of grants and one arm -/

theorem changedGrants_mem {old new : List Part} {a : ArmId} (h : a ∈ changedGrants old new) :
    a ∈ new.map (·.arm) := by
  simp only [changedGrants, List.mem_map, List.mem_filter] at h
  obtain ⟨x, ⟨hx, -⟩, rfl⟩ := h
  exact List.mem_map_of_mem (List.of_mem_zip hx).2

/-- A computation of grants leaves the arms that do not participate, and the arm whose handing brought it. -/
theorem State.recomputeGrants_arm {handing : Option ArmId} {s : State} {b : ArmId}
    (h : s.participates b = false ∨ handing = some b) : (s.recomputeGrants handing).arm b = s.arm b := by
  unfold State.recomputeGrants
  refine State.forAll_keeps (P := fun t => t.arm b = s.arm b) rfl fun a ha t ht => ?_
  rw [State.applySplit_arm_ne, ht]
  rintro rfl
  simp only [List.mem_filter, bne_iff_ne, ne_eq] at ha
  rcases h with h | rfl
  · have hmem := changedGrants_mem ha.1
    rw [fillGrants_arms] at hmem
    obtain ⟨p, hp, he⟩ := List.mem_map.mp hmem
    exact State.participates_false.mp h p hp he
  · exact ha.2 rfl

/-- The participants after a computation of grants ask for what they asked for. -/
theorem fillGrants_keeps (cap : Nat) {parts : List Part} {p : Part} (h : p ∈ parts) :
    ∃ x ∈ fillGrants cap parts, x.arm = p.arm ∧ x.demand = p.demand := by
  obtain ⟨i, hi, rfl⟩ := List.mem_iff_getElem.mp h
  have harms := fillGrants_arms cap parts
  have hdem := fillGrants_demands cap parts
  have hlen : i < (fillGrants cap parts).length := by
    rw [← List.length_map (f := Part.arm), harms, List.length_map]
    exact hi
  refine ⟨_, List.getElem_mem hlen, ?_, ?_⟩
  · have := List.getElem_of_eq harms (by simpa using hlen)
    simpa using this
  · have := List.getElem_of_eq hdem (by simpa using hlen)
    simpa using this

theorem part_of_participates {s : State} {a : ArmId} (h : s.participates a = true) :
    ∃ p, (s.header.parts.find? fun p => p.arm == a) = some p := by
  rw [← Option.isSome_iff_exists, List.find?_isSome]
  simpa [State.participates] using h

theorem no_part_of_participates {s : State} {a : ArmId} (h : s.participates a = false) :
    (s.header.parts.find? fun p => p.arm == a) = none := by
  simpa using State.participates_false.mp h

theorem State.ethDemand_of_head {s : State} {a : ArmId} {l : Load} (hl : s.head a = some l)
    (hp : l.state.inProgress = true) : s.ethDemand a = s.cappedDemand a * l.share / 10000 := by
  simp [State.ethDemand, State.armShare, State.running_of_head hl, hp]

theorem LoadState.inProgress_of_delivers {st : LoadState} (h : st.delivers = true) : st.inProgress = true := by
  revert h
  cases st <;> decide

/-! ### The split -/

/-- The state in which the demand of an arm has been handed and its split is still to be written (R151). -/
structure Handed (a : ArmId) (s u : State) : Prop where
  rest    : u = { s with arms := u.arms, header := { s.header with parts := u.header.parts } }
  own     : u.arm a = s.arm a
  others  : ∀ b, s.participates b = false → u.arm b = s.arm b
  arms    : u.header.parts.map (·.arm) = s.header.parts.map (·.arm)
  asked   : s.participates a = true → ∃ p ∈ u.header.parts, p.arm = a ∧ p.demand = s.ethDemand a
  outside : s.participates a = false → u.header = s.header

theorem Handed.refl {a : ArmId} {s : State}
    (h : s.participates a = true → ∃ p ∈ s.header.parts, p.arm = a ∧ p.demand = s.ethDemand a) : Handed a s s :=
  ⟨rfl, rfl, fun _ _ => rfl, rfl, h, fun _ => rfl⟩

theorem State.formSplit_handed {s : State} {a : ArmId} (hd : s.headIs a LoadState.delivers = true) :
    ∃ u, s.formSplit a = u.applySplit a ∧ Handed a s u := by
  unfold State.formSplit
  rw [if_pos hd]
  cases hp : s.participates a with
  | false =>
    rw [no_part_of_participates hp]
    exact ⟨s, rfl, .refl fun h => by rw [hp] at h; cases h⟩
  | true =>
    obtain ⟨p, hfind⟩ := part_of_participates hp
    rw [hfind]
    dsimp only
    have harm : p.arm = a := by simpa using List.find?_some hfind
    by_cases hdem : p.demand = s.ethDemand a
    · rw [if_pos hdem]
      exact ⟨s, rfl, .refl fun _ => ⟨p, List.mem_of_find?_eq_some hfind, harm, hdem⟩⟩
    · rw [if_neg hdem]
      refine ⟨_, rfl, ?_, State.recomputeGrants_arm (.inr rfl), fun b hb => State.recomputeGrants_arm (.inl ?_), ?_,
        fun _ => ?_, fun h => by rw [hp] at h; cases h⟩
      · rw [State.recomputeGrants_eq]
        rfl
      · rw [State.participates_false] at hb ⊢
        intro x hx
        rcases mem_updFirst hx with hx | ⟨y, hy, -, rfl⟩
        · exact hb x hx
        · exact hb y hy
      · rw [State.recomputeGrants_members]
        exact updFirst_map fun _ _ _ => rfl
      · rw [State.recomputeGrants_parts]
        have hmem : { p with demand := s.ethDemand a } ∈
            updFirst (fun p => p.arm == a) (fun p => { p with demand := s.ethDemand a }) s.header.parts := by
          have := find?_updFirst (p := fun p : Part => p.arm == a)
            (f := fun p => { p with demand := s.ethDemand a }) (l := s.header.parts) fun _ _ h => h
          rw [hfind] at this
          exact List.mem_of_find?_eq_some this
        obtain ⟨x, hx, hxa, hxd⟩ := fillGrants_keeps s.header.effCap hmem
        exact ⟨x, hx, hxa.trans harm, hxd⟩

/-- What a split in full leaves: the arm's setpoints and commands for the grant it then holds, the demand handed, and
everything else but the arms and grants of the other participants. -/
structure SplitFormed (a : ArmId) (l : Load) (s t : State) : Prop where
  rest    : t = { s with arms := t.arms, header := { s.header with parts := t.header.parts } }
  own     : let q := splitFlow (s.cappedDemand a) l.share (s.cappedDemand a * l.share / 10000) (t.grantOf a)
            let qe := if l.inBody then q * l.share / 10000 else 0
            t.arm a = (s.arm a).setFlow q (q - qe) qe
  others  : ∀ b, b ≠ a → s.participates b = false → t.arm b = s.arm b
  arms    : t.header.parts.map (·.arm) = s.header.parts.map (·.arm)
  asked   : s.participates a = true →
              ∃ p ∈ t.header.parts, p.arm = a ∧ p.demand = s.cappedDemand a * l.share / 10000
  outside : s.participates a = false → t.header = s.header

theorem State.formSplit_formed {s : State} {a : ArmId} {l : Load} (hl : s.head a = some l)
    (hd : l.state.delivers = true) : SplitFormed a l s (s.formSplit a) := by
  obtain ⟨u, he, h⟩ := State.formSplit_handed (a := a) ((State.headIs_of_head hl _).trans hd)
  have hul : u.head a = some l := by
    rw [h.rest]
    exact hl
  have hdefn : u.defn a = s.defn a := by simp [State.defn, h.own]
  have hcap : u.cappedDemand a = s.cappedDemand a := by simp [State.cappedDemand, h.own, hdefn]
  have heth := State.ethDemand_of_head hl (LoadState.inProgress_of_delivers hd)
  have hueth := State.ethDemand_of_head hul (LoadState.inProgress_of_delivers hd)
  rw [hcap] at hueth
  rw [he]
  refine ⟨?_, ?_, fun b hb hp => ?_, ?_, fun hp => ?_, fun hp => ?_⟩
  · rw [State.applySplit_eq, h.rest]
  · have hgrant : (u.applySplit a).grantOf a = u.grantOf a := by simp [State.grantOf]
    rw [hgrant, State.applySplit_of_delivers hul hd, hcap, hueth]
    dsimp only
    rw [State.modArm_arm_same, h.own]
  · rw [State.applySplit_arm_ne hb, h.others b hp]
  · rw [State.applySplit_header, h.arms]
  · rw [State.applySplit_header, ← heth]
    exact h.asked hp
  · rw [State.applySplit_header, h.outside hp]

/-! ### The ramp tick (R127, R130) -/

theorem rampTarget_eq (d : ArmDef) (f : FlowState) (l : Load) :
    rampTarget d f l =
      if l.rstLeft = 0 then (if l.state = .ending ∧ f.limit = 0 then d.rstFlow else f.limit)
      else min (if l.state = .ending ∧ f.limit = 0 then d.rstFlow else f.limit) d.rstFlow := by
  simp [rampTarget]

theorem State.tickRamp_of_not {s : State} {a : ArmId} {l : Load} (hl : s.head a = some l)
    (hd : l.state.delivers = false) : s.tickRamp a = s := by
  simp [State.tickRamp, hl, hd]

theorem State.tickRamp_of_delivers {s : State} {a : ArmId} {l : Load} (hl : s.head a = some l)
    (hd : l.state.delivers = true) :
    s.tickRamp a =
      let f := (s.arm a).flow
      let q := rampMove f.rate (rampTarget (s.defn a) f l) f.qDem
      if q = f.qDem then s else State.formSplit a (s.modFlow a fun f => { f with qDem := q }) := by
  simp [State.tickRamp, hl, hd]

theorem LoadState.delivers_iff {st : LoadState} : st.delivers = true ↔ st = .flowing ∨ st = .ending := by
  cases st <;> simp [LoadState.delivers]

/-- Settles O45: the tick hands the moved demand to the split. -/
theorem rampTickMovesTheDemand : Obligations.RampTickMovesTheDemand := by
  intro a l s hp hl d f limit target step q
  have hq : rampMove f.rate (rampTarget d f l) f.qDem = q := by
    rw [rampTarget_eq]
    rfl
  refine ⟨fun hnf hne => ?_, fun hsame => ?_, fun hd hmoved => ?_⟩
  · refine (event_powered hp).trans (congrArg _ (State.tickRamp_of_not hl ?_))
    simpa [hnf, hne] using LoadState.delivers_iff (st := l.state)
  · refine (event_powered hp).trans (congrArg _ ?_)
    cases hd : l.state.delivers with
    | false => exact State.tickRamp_of_not hl hd
    | true =>
      rw [State.tickRamp_of_delivers hl hd]
      exact if_pos (hq.trans hsame)
  · have hd := LoadState.delivers_iff.mpr hd
    intro pre demand
    refine ⟨_, event_powered hp, ?_⟩
    rw [State.tickRamp_of_delivers hl hd]
    dsimp only
    rw [if_neg (fun e => hmoved (hq.symm.trans e)), hq]
    obtain ⟨hrest, hown, hothers, -, hasked, hout⟩ := State.formSplit_formed
      (s := s.modFlow a fun f => { f with qDem := q }) hl hd
    generalize State.formSplit a (s.modFlow a fun f => { f with qDem := q }) = t at *
    have hdefn : (s.modFlow a fun f => { f with qDem := q }).defn a = d := by
      simp [State.defn, State.modFlow_arm, d]
    have hcap : (s.modFlow a fun f => { f with qDem := q }).cappedDemand a = pre := by
      simp [State.cappedDemand, hdefn, State.modFlow_arm, pre]
    have hbody : l.inBody = decide (l.state = .flowing ∧ l.phase = .body) := by
      rw [Bool.eq_iff_iff]
      simp [Load.inBody]
    rw [hcap, hbody] at hown
    rw [hcap] at hasked
    have hfs : ((s.modFlow a fun f => { f with qDem := q }).arm a).defn.getD noArmDef = d := hdefn
    have hgranted : splitFlow pre l.share demand (t.grantOf a) =
        if l.share = 0 then pre else match t.grantOf a with
          | none => pre
          | some g => if g < demand then min pre (g * 10000 / l.share) else pre := by
      unfold splitFlow
      cases t.grantOf a <;> rfl
    simp only [decide_eq_true_eq] at hown
    rw [hown]
    refine ⟨?_, hgranted, rfl, rfl, ?_, ?_, hasked, hout, ?_⟩
    · simp [State.modFlow_arm, Arm.setFlow]
    · rw [← hfs]
      rfl
    · rw [← hfs]
      rfl
    · rw [hrest]
      exact ⟨rfl, rfl, rfl, rfl, rfl, rfl, rfl, fun b hb hpart =>
        (hothers b hb hpart).trans (by rw [State.modFlow_arm, if_neg hb])⟩

end Sys2Proof.Machine

end

section
/-! PROOFS. What an operation of the header leaves of every arm and its records: the arms it can reach are those that
wait and those that participate (R131, R153 to R155). -/

namespace Sys2Proof.Machine

/-! ### What the header writes of one arm and of one record -/

/-- An arm without what its flow split writes (R70, R131, R136). -/
def Arm.unsplit (x : Arm) : Arm :=
  { x with
    flow := { x.flow with q := 0, qBase := 0, qEth := 0, noFlowBase := none, noFlowEth := none }
    valveBase := 0
    valveEth := 0 }

/-- An arm without what its entry to FLOWING writes either (R124, R125, R127). -/
def Arm.still (x : Arm) : Arm :=
  { x.unsplit with flow := { x.unsplit.flow with started := false, limit := 0, rate := 0, qDem := 0 } }

/-- A record without what its entry to FLOWING and its strokes write (R107, R125, R155, R167). -/
def Load.still (l : Load) : Load :=
  { l with
    state := .flowing
    phase := .body
    admitFrom := none
    step := 0
    share := 0
    adds := l.adds.map fun e => { e with fired := 0 } }

theorem Arm.setFlow_unsplit (x : Arm) (q qb qe : Nat) : (x.setFlow q qb qe).unsplit = x.unsplit := rfl

theorem Arm.still_of_unsplit {x y : Arm} (h : y.unsplit = x.unsplit) : y.still = x.still := by
  rw [Arm.still, Arm.still, h]

/-- A head load that has been admitted at most: nothing of it but its entry to FLOWING is written, and no stroke where
none may begin. -/
structure Moved (barred : Bool) (l m : Load) : Prop where
  still : m.still = l.still
  state : m.state = l.state ∨ m.state = .flowing
  phase : m.phase = l.phase ∨ m.phase = .body
  adds  : barred = true → m.adds = l.adds

theorem Moved.refl (barred : Bool) (l : Load) : Moved barred l l :=
  ⟨rfl, .inl rfl, .inl rfl, fun _ => rfl⟩

theorem Moved.trans {barred : Bool} {l m k : Load} (h : Moved barred l m) (g : Moved barred m k) :
    Moved barred l k where
  still := g.still.trans h.still
  state := by
    rcases g.state with e | e
    · rw [e]
      exact h.state
    · exact .inr e
  phase := by
    rcases g.phase with e | e
    · rw [e]
      exact h.phase
    · exact .inr e
  adds := fun hb => (g.adds hb).trans (h.adds hb)

theorem Moved.arm {barred : Bool} {l m : Load} (h : Moved barred l m) : m.arm = l.arm :=
  (congrArg Load.arm h.still :)

theorem Moved.ne_ended {barred : Bool} {l m : Load} (h : Moved barred l m) (hl : l.state ≠ .ended) :
    m.state ≠ .ended := by
  rcases h.state with e | e
  · rwa [e]
  · rw [e]
    decide

/-! ### Records of one arm -/

theorem State.armQueue_eq (s : State) (a : ArmId) :
    s.armQueue a = (s.loads.filter fun x => x.arm == a).filter fun x => x.state != .ended := by
  rw [List.filter_filter, State.armQueue]
  exact List.filter_congr fun x _ => Bool.and_comm _ _

theorem State.head_eq (s : State) (a : ArmId) : s.head a = (s.armQueue a).head? := by
  rw [State.armQueue, List.head?_filter, State.head]

theorem State.head_of_filter {s t : State} {a : ArmId}
    (h : (t.loads.filter fun x => x.arm == a) = s.loads.filter fun x => x.arm == a) : t.head a = s.head a := by
  rw [State.head_eq, State.head_eq, State.armQueue_eq, State.armQueue_eq, h]

theorem filter_updFirst_drop {α : Type} {p : α → Bool} {f : α → α} {l : List α}
    (h : ∀ x ∈ l, p x = true → p (f x) = true) :
    ((updFirst p f l).filter p).drop 1 = (l.filter p).drop 1 := by
  rcases updFirst_cases (p := p) (f := f) (l := l) with ⟨he, -⟩ | ⟨as, x, bs, rfl, has, hx, he⟩
  · rw [he]
  · have hnil : as.filter p = [] := List.filter_eq_nil_iff.mpr fun y hy => by simp [has y hy]
    have hfx := h x (by simp) hx
    rw [he]
    simp [List.filter_append, hnil, hx, hfx]

/-- What an update of one head load leaves of the records behind it. -/
theorem State.modHead_tail {a : ArmId} {f : Load → Load} {s : State}
    (h : ∀ l, l.state ≠ .ended → (f l).arm = l.arm ∧ (f l).state ≠ .ended) (b : ArmId) :
    ((s.modHead a f).armQueue b).drop 1 = (s.armQueue b).drop 1 := by
  by_cases hb : b = a
  · subst hb
    refine filter_updFirst_drop fun l _ hp => ?_
    simp only [Bool.and_eq_true, beq_iff_eq, bne_iff_ne] at hp ⊢
    exact ⟨(h l hp.2).1.trans hp.1, (h l hp.2).2⟩
  · refine congrArg (List.drop 1) (filter_updFirst_of_ne fun l _ hp => ?_)
    simp only [Bool.and_eq_true, beq_iff_eq, bne_iff_ne] at hp
    have hab : ¬ a = b := fun e => hb e.symm
    simp [(h l hp.2).1, hp.1, hab]

theorem State.modHead_filter {a b : ArmId} {f : Load → Load} {s : State}
    (h : ∀ l, l.state ≠ .ended → (f l).arm = l.arm) (hb : b ≠ a) :
    ((s.modHead a f).loads.filter fun x => x.arm == b) = s.loads.filter fun x => x.arm == b := by
  refine filter_updFirst_of_ne fun l _ hp => ?_
  simp only [Bool.and_eq_true, beq_iff_eq, bne_iff_ne] at hp
  have hab : ¬ a = b := fun e => hb e.symm
  simp [h l hp.2, hp.1, hab]

/-! ### The frame -/

/-- What an operation of the header leaves: of an arm outside `W` its records and all but its flow split, of one outside
`P` everything. -/
structure Frame (W P : ArmId → Prop) (s t : State) : Prop where
  lanes   : t.lanes = s.lanes
  recipes : t.recipes = s.recipes
  arms    : ∀ b, (t.arm b).still = (s.arm b).still
  started : ∀ b, (s.arm b).flow.started = true → (t.arm b).flow.started = true
  unsplit : ∀ b, ¬ W b → (t.arm b).unsplit = (s.arm b).unsplit
  apart   : ∀ b, ¬ P b → t.arm b = s.arm b
  loads   : ∀ b, ¬ W b → (t.loads.filter fun x => x.arm == b) = s.loads.filter fun x => x.arm == b
  tails   : ∀ b, (t.armQueue b).drop 1 = (s.armQueue b).drop 1
  heads   : ∀ b l, s.head b = some l → ∃ m, t.head b = some m ∧ Moved (s.strokesBarred b) l m

section
variable {W P : ArmId → Prop} {s t u : State}

theorem Frame.defn (h : Frame W P s t) (b : ArmId) : (t.arm b).defn = (s.arm b).defn :=
  (congrArg Arm.defn (h.arms b) :)

theorem Frame.locked (h : Frame W P s t) (b : ArmId) : (t.arm b).locked = (s.arm b).locked :=
  (congrArg Arm.locked (h.arms b) :)

theorem Frame.lane (h : Frame W P s t) (n : LaneId) : t.lane n = s.lane n := by
  rw [State.lane, h.lanes, ← State.lane]

theorem Frame.laneOf (h : Frame W P s t) (b : ArmId) : t.laneOf b = s.laneOf b := by
  rw [State.laneOf, h.defn, ← State.laneOf]

theorem Frame.strokesBarred (h : Frame W P s t) (b : ArmId) : t.strokesBarred b = s.strokesBarred b := by
  simp [State.strokesBarred, State.armLaneShut, h.locked, h.laneOf, h.lane]

theorem Frame.head (h : Frame W P s t) {b : ArmId} (hb : ¬ W b) : t.head b = s.head b :=
  State.head_of_filter (h.loads b hb)

theorem Frame.refl (W P : ArmId → Prop) (s : State) : Frame W P s s :=
  ⟨rfl, rfl, fun _ => rfl, fun _ => id, fun _ _ => rfl, fun _ _ => rfl, fun _ _ => rfl, fun _ => rfl,
    fun _ l hl => ⟨l, hl, .refl _ l⟩⟩

theorem Frame.trans (h : Frame W P s t) (g : Frame W P t u) : Frame W P s u where
  lanes := g.lanes.trans h.lanes
  recipes := g.recipes.trans h.recipes
  arms := fun b => (g.arms b).trans (h.arms b)
  started := fun b e => g.started b (h.started b e)
  unsplit := fun b hb => (g.unsplit b hb).trans (h.unsplit b hb)
  apart := fun b hb => (g.apart b hb).trans (h.apart b hb)
  loads := fun b hb => (g.loads b hb).trans (h.loads b hb)
  tails := fun b => (g.tails b).trans (h.tails b)
  heads := fun b l hl => by
    obtain ⟨m, hm, hlm⟩ := h.heads b l hl
    obtain ⟨k, hk, hmk⟩ := g.heads b m hm
    rw [h.strokesBarred b] at hmk
    exact ⟨k, hk, hlm.trans hmk⟩

/-- A state that differs in no arm and no record. -/
theorem Frame.of_same (hl : t.loads = s.loads) (ha : t.arms = s.arms) (hn : t.lanes = s.lanes)
    (hr : t.recipes = s.recipes) : Frame W P s t := by
  have harm : ∀ b, t.arm b = s.arm b := fun b => by rw [State.arm, ha, ← State.arm]
  refine ⟨hn, hr, fun b => by rw [harm], fun b => by rw [harm]; exact id, fun b _ => by rw [harm],
    fun b _ => harm b, fun b _ => by rw [hl], fun b => by rw [State.armQueue, hl, ← State.armQueue], fun b l hb => ?_⟩
  exact ⟨l, (State.head_congr hl b).trans hb, .refl _ l⟩

theorem State.modHeader_frame (f : Header → Header) (s : State) : Frame W P s (s.modHeader f) := .of_same rfl rfl rfl rfl

theorem State.modInjector_frame (j : InjId) (f : Injector → Injector) (s : State) : Frame W P s (s.modInjector j f) :=
  .of_same rfl rfl rfl rfl

theorem State.attend_frame (x : Source) (s : State) : Frame W P s (s.attend x) := .of_same rfl rfl rfl rfl

/-- An update of one arm that leaves what its split does not write. -/
theorem State.modArm_frame {a : ArmId} {f : Arm → Arm} (ha : P a) (hf : (f (s.arm a)).unsplit = (s.arm a).unsplit) :
    Frame W P s (s.modArm a f) := by
  have hu : ∀ b, ((s.modArm a f).arm b).unsplit = (s.arm b).unsplit := fun b => by
    rw [State.modArm_arm]
    split
    · rename_i e
      rw [e, hf]
    · rfl
  refine ⟨rfl, rfl, fun b => Arm.still_of_unsplit (hu b), fun b hs => ?_, fun b _ => hu b, fun b hb => ?_,
    fun _ _ => rfl, fun _ => rfl, fun b l hl => ⟨l, hl, .refl _ l⟩⟩
  · exact (congrArg (fun x => x.flow.started) (hu b)).trans hs
  · refine State.modArm_arm_ne ?_ _ _
    rintro rfl
    exact hb ha

/-- An update of the ramp and profile of an arm that waits. -/
theorem State.modFlow_frame {a : ArmId} {f : FlowState → FlowState} (hw : W a) (hp : P a)
    (hf : ∀ x : Arm, ({ x with flow := f x.flow } : Arm).still = x.still)
    (hs : ∀ x : FlowState, x.started = true → (f x).started = true) : Frame W P s (s.modFlow a f) := by
  have hne : ∀ b, b ≠ a → (s.modFlow a f).arm b = s.arm b := fun b hb => by rw [State.modFlow_arm, if_neg hb]
  refine ⟨rfl, rfl, fun b => ?_, fun b hb => ?_, fun b hb => ?_, fun b hb => ?_,
    fun _ _ => rfl, fun _ => rfl, fun b l hl => ⟨l, hl, .refl _ l⟩⟩
  · rw [State.modFlow_arm]
    split
    · exact hf _
    · rfl
  · rw [State.modFlow_arm]
    split
    · exact hs _ hb
    · exact hb
  · rw [hne b fun e => hb (e ▸ hw)]
  · exact hne b fun e => hb (e ▸ hp)

/-- An update of the head load of an arm that waits. -/
theorem State.modHead_frame {a : ArmId} {f : Load → Load} (hw : W a)
    (hkept : ∀ l, l.state ≠ .ended → (f l).arm = l.arm ∧ (f l).state ≠ .ended)
    (hf : ∀ l, s.head a = some l → Moved (s.strokesBarred a) l (f l)) : Frame W P s (s.modHead a f) := by
  refine ⟨rfl, rfl, fun _ => rfl, fun _ => id, fun _ _ => rfl, fun _ _ => rfl, fun b hb => ?_, ?_, fun b l hl => ?_⟩
  · exact State.modHead_filter (fun l hl => (hkept l hl).1) fun e => hb (e ▸ hw)
  · exact State.modHead_tail hkept
  · rw [State.modHead_head hkept]
    split
    · rename_i e
      subst e
      exact ⟨f l, by rw [hl]; rfl, hf l hl⟩
    · exact ⟨l, hl, .refl _ l⟩

/-! ### The split, the profile and the strokes -/

theorem State.applySplit_frame {a : ArmId} (ha : P a) (s : State) : Frame W P s (s.applySplit a) := by
  unfold State.applySplit
  split
  · exact .refl W P s
  · split
    · exact State.modArm_frame ha (Arm.setFlow_unsplit _ _ _ _)
    · exact .refl W P s

theorem State.recomputeGrants_frame (handing : Option ArmId) (h : ∀ b ∈ s.header.parts.map (·.arm), P b) :
    Frame W P s (s.recomputeGrants handing) := by
  unfold State.recomputeGrants
  refine State.forAll_keeps (P := fun t => Frame W P s t) (State.modHeader_frame _ s) fun a ha t ht => ?_
  refine ht.trans (State.applySplit_frame (h a ?_) t)
  have := changedGrants_mem (List.mem_of_mem_filter ha)
  rwa [fillGrants_arms] at this

theorem State.formSplit_frame {a : ArmId} (ha : P a) (h : ∀ b ∈ s.header.parts.map (·.arm), P b) :
    Frame W P s (s.formSplit a) := by
  unfold State.formSplit
  split
  · split
    · exact State.applySplit_frame ha s
    · split
      · exact State.applySplit_frame ha s
      · refine ((State.modHeader_frame _ s).trans (State.recomputeGrants_frame _ ?_)).trans
          (State.applySplit_frame ha _)
        have harms : (updFirst (fun p : Part => p.arm == a) (fun p => { p with demand := s.ethDemand a })
            s.header.parts).map (·.arm) = s.header.parts.map (·.arm) := updFirst_map fun _ _ _ => rfl
        rw [State.modHeader_header, harms]
        exact h
  · exact .refl W P s

theorem State.snapDemand_frame {a : ArmId} (hw : W a) (hp : P a) (s : State) : Frame W P s (s.snapDemand a) := by
  unfold State.snapDemand
  split
  · exact .refl W P s
  · split
    · exact State.modFlow_frame hw hp (fun _ => rfl) fun _ => id
    · exact .refl W P s

theorem State.evalProfile_frame {a : ArmId} (hw : W a) (hp : P a) (s : State) : Frame W P s (s.evalProfile a) := by
  unfold State.evalProfile
  split
  · exact .refl W P s
  · dsimp only
    split
    · refine (Frame.trans ?_ (State.modFlow_frame hw hp (fun _ => ?_) fun _ => ?_)).trans
        (State.snapDemand_frame hw hp _)
      · exact State.modHead_frame hw (fun _ hl => ⟨rfl, hl⟩) fun l _ => ⟨rfl, .inl rfl, .inl rfl, fun _ => rfl⟩
      · rfl
      · exact id
    · exact .refl W P s

theorem State.testFiring_frame {a : ArmId} (hw : W a) (ch : InjId) (s : State) : Frame W P s (s.testFiring a ch) := by
  unfold State.testFiring
  split
  · exact .refl W P s
  · split
    · exact .refl W P s
    · split
      · rename_i l _ e _ hfire
        refine Frame.trans ?_ (State.modInjector_frame _ _ _)
        refine State.modHead_frame hw (fun _ hl => ⟨rfl, hl⟩) fun l _ => ⟨?_, .inl rfl, .inl rfl, fun hb => ?_⟩
        · have hadds : (updFirst (fun e : AddEntry => e.inj == ch) (fun e => { e with fired := e.fired + 1 })
              l.adds).map (fun e => { e with fired := 0 }) = l.adds.map fun e => { e with fired := 0 } :=
            updFirst_map fun _ _ _ => rfl
          simp only [Load.still, Load.modEntry, hadds]
        · simp [State.mayFire, hb] at hfire
      · exact .refl W P s

theorem State.testAllFiring_frame {a : ArmId} (hw : W a) (s : State) : Frame W P s (s.testAllFiring a) :=
  State.forAll_keeps (P := fun t => Frame W P s t) (.refl W P s) fun ch _ t ht =>
    ht.trans (State.testFiring_frame hw ch t)

theorem State.flowEntered_frame {a : ArmId} (hw : W a) (hp : P a) {phase : Phase}
    (hphase : phase = .body ∨ ∀ l, s.head a = some l → l.phase = phase) :
    Frame W P s (s.flowEntered a phase) := by
  have hm : Frame W P s (s.modHead a fun l =>
      l.enterFlow (!(s.arm a).flow.started) phase (s.defn a).sMax (s.recipeOf l).h) :=
    State.modHead_frame hw (fun _ _ => ⟨rfl, by simp [Load.enterFlow]⟩) fun l hl =>
      ⟨rfl, .inr rfl, hphase.elim .inr fun h => .inl (h l hl).symm, fun _ => rfl⟩
  unfold State.flowEntered
  dsimp only
  split
  · exact hm
  · exact (hm.trans (State.modFlow_frame hw hp (fun _ => rfl) fun _ _ => rfl)).trans (State.evalProfile_frame hw hp _)

theorem State.enterFlowing_frame {a : ArmId} (hw : W a) (hp : P a) {phase : Phase}
    (hphase : phase = .body ∨ ∀ l, s.head a = some l → l.phase = phase)
    (h : ∀ b ∈ s.header.parts.map (·.arm), P b) : Frame W P s (s.enterFlowing a phase) := by
  rw [State.enterFlowing_eq]
  refine (State.flowEntered_frame hw hp hphase).trans ((State.formSplit_frame hp ?_).trans
    (State.testAllFiring_frame hw _))
  rwa [State.flowEntered_header]

/-! ### The admission queue -/

/-- The arms that wait are in `W`, those that participate in `P`. -/
structure Within (W P : ArmId → Prop) (s : State) : Prop where
  queue : ∀ b ∈ s.header.queue, W b
  parts : ∀ b ∈ s.header.parts.map (·.arm), P b

theorem Within.congr (h : Within W P s) (g : SameMembers s t) : Within W P t :=
  ⟨g.queue ▸ h.queue, g.arms ▸ h.parts⟩

theorem State.admitHead_frame {a : ArmId} {rest : List ArmId} (hWP : ∀ b, W b → P b) (h : Within W P s)
    (hq : s.header.queue = a :: rest) : Frame W P s (s.admitHead a) ∧ Within W P (s.admitHead a) := by
  have ha : W a := h.queue a (by simp [hq])
  obtain ⟨hqueue, hparts⟩ := s.admitHead_members a
  have hmem : ∀ b ∈ s.header.parts.map (·.arm) ++ [a], P b := fun b hb => by
    rcases List.mem_append.mp hb with hb | hb
    · exact h.parts b hb
    · rw [List.mem_singleton.mp hb]
      exact hWP a ha
  refine ⟨?_, fun b hb => h.queue b ?_, hparts ▸ hmem⟩
  · refine ((State.modHeader_frame _ s).trans (State.recomputeGrants_frame none ?_)).trans
      (State.enterFlowing_frame ha (hWP a ha) (.inl rfl) ?_)
    · simpa using hmem
    · rw [State.recomputeGrants_members]
      simpa using hmem
  · rw [hqueue] at hb
    exact List.mem_of_mem_drop hb

theorem State.evaluateQueueFor_frame (hWP : ∀ b, W b → P b) (n : Nat) (h : Within W P s) :
    Frame W P s (State.evaluateQueueFor n s) ∧ Within W P (State.evaluateQueueFor n s) := by
  induction n generalizing s with
  | zero => exact ⟨.refl W P s, h⟩
  | succ n ih =>
    unfold State.evaluateQueueFor
    split
    · exact ⟨.refl W P s, h⟩
    · rename_i a rest hq
      split
      · obtain ⟨hf, hw⟩ := State.admitHead_frame hWP h hq
        obtain ⟨hf', hw'⟩ := ih hw
        exact ⟨hf.trans hf', hw'⟩
      · exact ⟨.refl W P s, h⟩

theorem State.evaluateQueue_frame (hWP : ∀ b, W b → P b) (h : Within W P s) : Frame W P s s.evaluateQueue :=
  (State.evaluateQueueFor_frame hWP _ h).1

/-- An arm joins the queue and may be admitted at once. -/
theorem State.joinQueue_frame {a : ArmId} (hWP : ∀ b, W b → P b) (h : Within W P s) (ha : W a) :
    Frame W P s (s.joinQueue a) := by
  have hw : Within W P (s.modHeader fun h => { h with queue := h.queue ++ [a] }) := by
    refine ⟨fun b hb => ?_, h.parts⟩
    rcases List.mem_append.mp hb with hb | hb
    · exact h.queue b hb
    · rw [List.mem_singleton.mp hb]
      exact ha
  have h1 : Frame W P s (s.modHeader fun h => { h with queue := h.queue ++ [a] }) := State.modHeader_frame _ s
  have h2 := h1.trans (State.evaluateQueue_frame hWP hw)
  unfold State.joinQueue
  dsimp only
  split <;> split
  · exact h2.trans (State.attend_frame _ _)
  · exact h2
  · exact h1.trans (State.attend_frame _ _)
  · exact h1

end

/-! ### An arm leaves the header -/

/-- The arms other than `a` that wait. -/
def State.waiting (s : State) (a b : ArmId) : Prop := b ≠ a ∧ b ∈ s.header.queue

/-- The arms other than `a` that wait or participate. -/
def State.member (s : State) (a b : ArmId) : Prop :=
  b ≠ a ∧ (b ∈ s.header.queue ∨ b ∈ s.header.parts.map (·.arm))

theorem State.member_of_waiting {s : State} {a b : ArmId} (h : s.waiting a b) : s.member a b := ⟨h.1, .inl h.2⟩

theorem State.not_outside_of_member {s : State} {a b : ArmId} (h : s.outside b) : ¬ s.member a b := fun g =>
  g.2.elim h.1 h.2

theorem State.within_of_outside {s : State} {a : ArmId} (h : s.outside a) : Within (s.waiting a) (s.member a) s :=
  ⟨fun _ hb => ⟨fun e => h.1 (e ▸ hb), hb⟩, fun _ hb => ⟨fun e => h.2 (e ▸ hb), .inr hb⟩⟩

/-- An arm that does not both wait and participate leaves the header: its own records and flow stand, and only members
of the header are reached. -/
theorem State.leaveHeader_frame {s : State} {a : ArmId} (ha : s.waits a = false ∨ s.participates a = false) :
    Frame (s.waiting a) (s.member a) s (s.leaveHeader a) := by
  have hWP : ∀ b, s.waiting a b → s.member a b := fun _ => State.member_of_waiting
  unfold State.leaveHeader
  cases hp : s.participates a with
  | true =>
    have hq : a ∉ s.header.queue := by simpa [hp, State.waits_false] using ha
    have hw : Within (s.waiting a) (s.member a) (s.modHeader fun h => { h with parts := h.parts.filter fun p => p.arm != a }) := by
      refine ⟨fun b hb => ⟨fun e => hq (e ▸ hb), hb⟩, fun b hb => ?_⟩
      simp only [State.modHeader_header, List.mem_map, List.mem_filter, bne_iff_ne] at hb
      obtain ⟨p, ⟨hp, hne⟩, rfl⟩ := hb
      exact ⟨hne, .inr (List.mem_map_of_mem hp)⟩
    have hout := State.leaveParticipants_outside (s := s) hq
    rw [State.leaveQueue_of_not hout.1]
    unfold State.leaveParticipants
    unfold State.participates at hp
    rw [if_pos hp]
    refine ((State.modHeader_frame _ s).trans (State.recomputeGrants_frame none hw.parts)).trans
      (State.evaluateQueue_frame hWP (hw.congr (State.recomputeGrants_sameMembers _ _)))
  | false =>
    rw [State.leaveParticipants_of_not hp]
    have hw : Within (s.waiting a) (s.member a) (s.modHeader fun h => { h with queue := h.queue.filter (· != a) }) := by
      refine ⟨fun b hb => ?_, fun b hb => ?_⟩
      · simp only [State.modHeader_header, List.mem_filter, bne_iff_ne] at hb
        exact ⟨hb.2, hb.1⟩
      · obtain ⟨p, hpm, rfl⟩ := List.mem_map.mp hb
        exact ⟨State.participates_false.mp hp p hpm, .inr hb⟩
    unfold State.leaveQueue
    split
    · dsimp only
      split
      · exact (State.modHeader_frame _ s).trans (State.evaluateQueue_frame hWP hw)
      · exact State.modHeader_frame _ s
    · exact .refl _ _ s

end Sys2Proof.Machine

end

section
/-! PROOFS. An arm that stops its load leaves the header: what holds of it and what stands elsewhere (R8 to R11, R186 to
R194), with the statements about HOLD and END (O14, O17). -/

namespace Sys2Proof.Machine

/-! ### What an event at an arm leaves alone -/

/-- What an event at arm `a` leaves of the lanes, the recipes, its own definition, lock and waiting records, and of every
arm outside `M`. -/
structure Apart (a : ArmId) (M : ArmId → Prop) (s t : State) : Prop where
  lanes   : t.lanes = s.lanes
  recipes : t.recipes = s.recipes
  defn    : (t.arm a).defn = (s.arm a).defn
  locked  : (t.arm a).locked = (s.arm a).locked
  tail    : (t.armQueue a).drop 1 = (s.armQueue a).drop 1
  others  : ∀ b, b ≠ a → ¬ M b →
              t.arm b = s.arm b ∧ (t.loads.filter fun x => x.arm == b) = s.loads.filter fun x => x.arm == b

section
variable {a : ArmId} {M : ArmId → Prop} {s t u : State}

theorem Apart.refl (a : ArmId) (M : ArmId → Prop) (s : State) : Apart a M s s :=
  ⟨rfl, rfl, rfl, rfl, rfl, fun _ _ _ => ⟨rfl, rfl⟩⟩

theorem Apart.trans (h : Apart a M s t) (g : Apart a M t u) : Apart a M s u where
  lanes := g.lanes.trans h.lanes
  recipes := g.recipes.trans h.recipes
  defn := g.defn.trans h.defn
  locked := g.locked.trans h.locked
  tail := g.tail.trans h.tail
  others := fun b hb hm =>
    ⟨(g.others b hb hm).1.trans (h.others b hb hm).1, (g.others b hb hm).2.trans (h.others b hb hm).2⟩

theorem Apart.of_same (hl : t.loads = s.loads) (ha : t.arms = s.arms) (hn : t.lanes = s.lanes)
    (hr : t.recipes = s.recipes) : Apart a M s t := by
  have harm : ∀ b, t.arm b = s.arm b := fun b => by rw [State.arm, ha, ← State.arm]
  exact ⟨hn, hr, by rw [harm], by rw [harm], by rw [State.armQueue, hl, ← State.armQueue],
    fun b _ _ => ⟨harm b, by rw [hl]⟩⟩

theorem Frame.toApart {W P : ArmId → Prop} (h : Frame W P s t) (hW : ∀ b, W b → b = a ∨ M b)
    (hP : ∀ b, P b → b = a ∨ M b) : Apart a M s t where
  lanes := h.lanes
  recipes := h.recipes
  defn := h.defn a
  locked := h.locked a
  tail := h.tails a
  others := fun b hb hm =>
    ⟨h.apart b fun e => (hP b e).elim hb hm, h.loads b fun e => (hW b e).elim hb hm⟩

theorem State.modHead_apart {f : Load → Load}
    (h : ∀ l, l.state ≠ .ended → (f l).arm = l.arm ∧ (f l).state ≠ .ended) : Apart a M s (s.modHead a f) :=
  ⟨rfl, rfl, rfl, rfl, State.modHead_tail h a, fun _ hb _ => ⟨rfl, State.modHead_filter (fun l hl => (h l hl).1) hb⟩⟩

theorem State.modArm_apart {g : Arm → Arm}
    (h : ∀ x, (g x).defn = x.defn ∧ (g x).locked = x.locked) : Apart a M s (s.modArm a g) := by
  refine ⟨rfl, rfl, ?_, ?_, rfl, fun b hb _ => ⟨State.modArm_arm_ne hb _ _, rfl⟩⟩ <;> rw [State.modArm_arm_same]
  · exact (h _).1
  · exact (h _).2

theorem State.attend_apart (x : Source) : Apart a M s (s.attend x) := .of_same rfl rfl rfl rfl

theorem State.modInjector_apart (j : InjId) (f : Injector → Injector) : Apart a M s (s.modInjector j f) :=
  .of_same rfl rfl rfl rfl

theorem State.forAll_apart {α : Type} {l : List α} {f : α → State → State}
    (h : ∀ x ∈ l, ∀ t, Apart a M t (f x t)) : Apart a M s (State.forAll l f s) :=
  State.forAll_keeps (P := fun t => Apart a M s t) (.refl a M s) fun x hx t ht => ht.trans (h x hx t)

end

/-- The statement's form of what an event leaves alone. -/
theorem apartFrom_of {a : ArmId} {s t : State} (hk : Kept s t) (h : Apart a (s.member a) s t) : apartFrom a s t := by
  refine ⟨h.lanes, h.recipes, hk.meters, hk.causes, hk.metrology, hk.calibration, hk.powered, by rw [hk.link],
    by rw [hk.link], hk.enabled, hk.master, hk.capacity, fun j => (hk.injector j).settings, h.defn, h.locked, h.tail,
    fun b hb hp hw => h.others b hb fun hm => ?_⟩
  rcases hm.2 with hq | hq
  · exact State.waits_false.mp hw hq
  · obtain ⟨p, hpm, he⟩ := List.mem_map.mp hq
    exact State.participates_false.mp hp p hpm he

theorem State.outside.participates {s : State} {a : ArmId} (h : s.outside a) : s.participates a = false :=
  State.participates_false.mpr (by simpa using h.2)

theorem State.outside.waits {s : State} {a : ArmId} (h : s.outside a) : s.waits a = false := State.waits_false.mpr h.1

theorem State.attend_pending_same (x : Source) (s : State) : (s.attend x).attention.pending[x.index] = true := by
  simp [State.attend]

/-! ### A load stops and its arm leaves the header -/

/-- The head load of an arm moves on and the arm leaves the header (R8 to R10). -/
def State.withdrawn (a : ArmId) (f : Load → Load) (g : Arm → Arm) (s : State) : State :=
  State.leaveHeader a (State.modArm a g (s.modHead a f))

structure Withdrawn (a : ArmId) (l m : Load) (y : Arm) (s t : State) : Prop where
  head    : t.head a = some m
  arm     : t.arm a = y
  outside : t.outside a
  apart   : Apart a (s.member a) s t

theorem State.withdrawn_spec {a : ArmId} {f : Load → Load} {g : Arm → Arm} {s : State} {l : Load}
    (hf : ∀ l, l.state ≠ .ended → (f l).arm = l.arm ∧ (f l).state ≠ .ended)
    (hg : ∀ x, (g x).defn = x.defn ∧ (g x).locked = x.locked) (hl : s.head a = some l)
    (ha : s.waits a = false ∨ s.participates a = false) :
    Withdrawn a l (f l) (g (s.arm a)) s (s.withdrawn a f g) := by
  have hframe := State.leaveHeader_frame (s := State.modArm a g (s.modHead a f)) ha
  refine ⟨?_, ?_, ?_, ?_⟩
  · rw [State.withdrawn, hframe.head fun h => h.1 rfl, State.modArm_head, State.modHead_head hf, if_pos rfl, hl,
      Option.map_some]
  · rw [State.withdrawn, hframe.apart a fun h => h.1 rfl, State.modArm_arm_same, State.modHead_arm]
  · refine State.leaveHeader_outside fun hq hp => ?_
    obtain ⟨p, hpm, he⟩ := List.mem_map.mp hp
    rcases ha with ha | ha
    · exact State.waits_false.mp ha hq
    · exact State.participates_false.mp ha p hpm he
  · exact ((State.modHead_apart hf).trans (State.modArm_apart hg)).trans
      (hframe.toApart (fun b hb => .inr (State.member_of_waiting hb)) fun _ hb => .inr hb)

/-- The record with a number, where the records of its arm stand. -/
theorem State.load_of_filter {s t : State} {n : Nat} {l : Load} (hk : List.Forall₂ LoadKept s.loads t.loads)
    (hf : (t.loads.filter fun x => x.arm == l.arm) = s.loads.filter fun x => x.arm == l.arm)
    (hl : s.load n = some l) : t.load n = some l := by
  unfold State.load at hl ⊢
  generalize s.loads = xs at hk hf hl
  generalize t.loads = ys at hk hf
  induction hk with
  | nil => cases hl
  | @cons x y xs ys hxy _ ih =>
    rw [List.filter_cons, List.filter_cons, hxy.arm] at hf
    have hsame : x.arm = l.arm → y = x := fun e => by
      rw [if_pos (by simpa using e), if_pos (by simpa using e)] at hf
      exact (List.cons.inj hf).1
    rw [List.find?_cons] at hl ⊢
    rw [hxy.number]
    cases hn : x.number == n with
    | true =>
      rw [hn] at hl
      cases hl
      rw [hsame rfl]
    | false =>
      rw [hn] at hl
      refine ih hl ?_
      split at hf
      · exact (List.cons.inj hf).2
      · exact hf

/-- The record with a number after an update of the head load it is. -/
theorem State.modHead_load {a : ArmId} {f : Load → Load} {s : State} {n : Nat} {l : Load} (hl : s.head a = some l)
    (hn : s.load n = some l) (hf : ∀ l, (f l).number = l.number) : (s.modHead a f).load n = some (f l) := by
  rw [State.load, State.modHead, updFirst_test_congr (q := fun x : Load => x.number == n) hl hn]
  exact State.load_updFirst hn hf

theorem State.withdrawn_load {a : ArmId} {f : Load → Load} {g : Arm → Arm} {s : State} {n : Nat} {l : Load}
    (hf : ∀ l, l.state ≠ .ended → (f l).arm = l.arm ∧ (f l).state ≠ .ended) (hnum : ∀ l, (f l).number = l.number)
    (hl : s.head a = some l) (hn : s.load n = some l) (ha : s.waits a = false ∨ s.participates a = false) :
    (s.withdrawn a f g).load n = some (f l) := by
  have hframe := State.leaveHeader_frame (s := State.modArm a g (s.modHead a f)) ha
  obtain ⟨-, harm, hstate⟩ := State.head_some hl
  have hfa : (f l).arm = a := (hf l hstate).1.trans harm
  refine State.load_of_filter (State.leaveHeader_kept a _).loads ?_ ?_
  · rw [hfa]
    exact hframe.loads a fun h => h.1 rfl
  · exact (State.modHead_load hl hn hnum :)

/-! ### HELD (R9) -/

/-- The record that a HOLD with a cause takes to HELD (R9, R188 to R190). -/
def Load.heldBy (c : Cause) (det : Detail) (l : Load) : Load :=
  { Load.joinHold (.cause c) (Load.fillStop (.cause c) .hold det (l.keepDetail (.cause c) det)) with
    state := .held, admitFrom := none, share := 0 }

theorem Load.fillStop_eq (code : StopCode) (cls : Cls) (det : Detail) (l : Load) :
    l.fillStop code cls det =
      { l with
        stop1 := (l.fillStop code cls det).stop1
        stop2 := (l.fillStop code cls det).stop2 } := by
  unfold Load.fillStop
  split
  · rfl
  · split <;> rfl

theorem Load.fillStop_stop1 (code : StopCode) (cls : Cls) (det : Detail) (l : Load) :
    (l.fillStop code cls det).stop1 = if l.stop1.isNone then some (l.stopRecord code cls det) else l.stop1 := by
  unfold Load.fillStop
  split
  · rfl
  · split <;> rfl

/-- Everything a HOLD leaves of the record. -/
theorem Load.heldBy_eq (c : Cause) (det : Detail) (l : Load) :
    l.heldBy c det =
      { l with
        state := .held, admitFrom := none, share := 0
        holds := insertCause c l.holds
        holdDetails := (l.heldBy c det).holdDetails
        stop1 := if l.stop1.isNone then some (l.stopRecord (.cause c) .hold det) else l.stop1
        stop2 := (l.heldBy c det).stop2 } := by
  have hstop : ((l.keepDetail (.cause c) det).fillStop (.cause c) .hold det).stop1 =
      if l.stop1.isNone then some (l.stopRecord (.cause c) .hold det) else l.stop1 := by
    rw [Load.fillStop_stop1, Load.keepDetail_eq]
    rfl
  unfold Load.heldBy
  simp only [Load.joinHold]
  rw [← hstop, Load.fillStop_eq, Load.keepDetail_eq]

theorem Load.heldBy_keeps (c : Cause) (det : Detail) {l : Load} (_ : l.state ≠ .ended) :
    (l.heldBy c det).arm = l.arm ∧ (l.heldBy c det).state ≠ .ended := by
  rw [Load.heldBy_eq]
  exact ⟨rfl, by simp⟩

/-- The state in which a HOLD has taken the head load of an arm to HELD. -/
def State.heldEntered (a : ArmId) (c : Cause) (det : Detail) (s : State) : State :=
  State.attend .loadHeld (s.withdrawn a (Load.heldBy c det) Arm.zeroFlow)

theorem not_escalates {d : ArmDef} {l : Load} (h : notEscalated d l) (cls : Cls) :
    escalates d.resLimit cls l = false := by
  unfold notEscalated at h
  simp only [escalates, Bool.and_eq_false_iff, decide_eq_false_iff_not]
  rcases h with h | h <;> omega

theorem State.takeCause_hold {s : State} {a : ArmId} {l : Load} {c : Cause} (det : Detail)
    (hcls : s.causes[c.index] = .hold) (hl : s.head a = some l) (hst : l.state = .flowing)
    (hesc : notEscalated (s.defn a) l) : s.takeCause a (.cause c) det = s.heldEntered a c det := by
  have hrunning : s.running a = some l := by
    rw [State.running_of_head hl, hst]
    rfl
  have hkeep : ∀ k : Load, k.state ≠ .ended →
      (k.keepDetail (.cause c) det).arm = k.arm ∧ (k.keepDetail (.cause c) det).state ≠ .ended := fun k hk =>
    ⟨by rw [Load.keepDetail_eq], by rwa [(Load.keepDetail_stage _ _ _).1]⟩
  simp only [State.takeCause, State.classOf, hcls, hrunning]
  rw [if_neg (by simp [not_escalates hesc]), State.takeOnLoad]
  simp only [asNotice, State.actHold, hst]
  rw [if_neg (by decide), State.enterHeld, State.modHead_modHead _ hkeep, State.modHead_modHead]
  · rfl
  · intro k hk
    obtain ⟨harm, hne⟩ := hkeep k hk
    exact ⟨by rw [Load.fillStop_eq]; exact harm, by rwa [(Load.fillStop_stage _ _ _ _).1]⟩

/-- What holds where a HOLD has taken a FLOWING load to HELD. -/
theorem State.heldEntered_heldBy {s : State} {a : ArmId} {l : Load} (c : Cause) (det : Detail)
    (hl : s.head a = some l) (hst : l.state = .flowing) (ha : s.waits a = false) :
    heldBy c det a l (s.heldEntered a c det) ∧ (s.heldEntered a c det).arm a = (s.arm a).zeroFlow ∧
      Apart a (s.member a) s (s.heldEntered a c det) := by
  obtain ⟨hhead, harm, hout, hapart⟩ := State.withdrawn_spec (g := Arm.zeroFlow)
    (fun _ => Load.heldBy_keeps c det) (fun _ => ⟨rfl, rfl⟩) hl (.inl ha)
  refine ⟨⟨⟨l.heldBy c det, hhead, ?_⟩, ?_⟩, harm, hapart.trans (State.attend_apart _)⟩
  · rw [Load.heldBy_eq]
    refine ⟨rfl, rfl, rfl, rfl, rfl, rfl, by simp, rfl, fun h => ?_, fun h => ?_⟩
    · simp [h, Load.stopRecord, Load.stopPhase, hst]
    · simp [h]
  · have harm' : (s.heldEntered a c det).arm a = (s.arm a).zeroFlow := harm
    rw [harm']
    refine ⟨rfl, rfl, rfl, ?_, ?_, ?_⟩
    · exact hout.participates
    · exact hout.waits
    · exact State.attend_pending_same _ _

/-- A cause of class HOLD on a FLOWING load. -/
theorem State.takeCause_heldBy {s : State} {a : ArmId} {l : Load} {c : Cause} (det : Detail)
    (hcls : s.causes[c.index] = .hold) (hl : s.head a = some l) (hst : l.state = .flowing)
    (hesc : notEscalated (s.defn a) l) (ha : s.waits a = false) :
    heldBy c det a l (s.takeCause a (.cause c) det) ∧
      ((s.takeCause a (.cause c) det).arm a = (s.arm a).zeroFlow ∧
        Apart a (s.member a) s (s.takeCause a (.cause c) det)) := by
  rw [State.takeCause_hold det hcls hl hst hesc]
  exact State.heldEntered_heldBy c det hl hst ha

theorem State.modFlow_defn (a b : ArmId) (f : FlowState → FlowState) (s : State) :
    (s.modFlow a f).defn b = s.defn b := by
  rw [State.defn, State.modFlow_arm]
  split <;> rfl

theorem State.modFlow_apart {a : ArmId} {M : ArmId → Prop} {s : State} (f : FlowState → FlowState) :
    Apart a M s (s.modFlow a f) := State.modArm_apart fun _ => ⟨rfl, rfl⟩

/-- The response to a request leaves everything but the link. -/
theorem apartFrom_answered {a : ArmId} {s t : State} (r : Response) (h : apartFrom a s t) :
    apartFrom a s (s.answered t r) := h

theorem State.armOf_of {s : State} {n : Nat} {l : Load} (h : s.load n = some l) : s.armOf n = l.arm := by
  simp [State.armOf, h]

theorem State.expireNoFlow_eq {s : State} {a : ArmId} {r : Role} {m : MeterId}
    (hrun : ((s.arm a).flow.noFlow r).isSome = true) (hm : (s.defn a).meterOf r = some m) :
    s.expireNoFlow a r = State.takeCause a (.cause .noFlow) (.meter m) (s.modFlow a (FlowState.stopNoFlow r)) := by
  obtain ⟨n, hn⟩ := Option.isSome_iff_exists.mp hrun
  simp [State.expireNoFlow, hn, hm]

/-- Settles O14: each of the three is a cause of class HOLD on a FLOWING load. -/
theorem holdStopsAFlowingLoad : Obligations.HoldStopsAFlowingLoad := by
  intro a l s hp hl hst hesc hw
  refine ⟨fun hcls => ?_, fun f n hsend hparse hn hcls => ?_, fun r m hrun hm hcls => ?_⟩
  · obtain ⟨hheld, -, hapart⟩ := State.takeCause_heldBy .none hcls hl hst hesc hw
    refine ⟨_, (event_powered hp).trans (congrArg _ (if_pos ?_)), hheld,
      apartFrom_of (State.takeCause_kept _ _ _ s) hapart⟩
    rw [State.headIs_of_head hl, hst]
    rfl
  · obtain ⟨-, harm, -⟩ := State.head_some hl
    obtain ⟨hheld, -, hapart⟩ := State.takeCause_heldBy .none hcls hl hst hesc hw
    have haccept : holdAccept n s = s.takeCause a (.cause .hostHold) .none := by
      rw [holdAccept, State.armOf_of hn, harm]
    have hload : (s.takeCause a (.cause .hostHold) .none).load n = some (l.heldBy .hostHold .none) := by
      rw [State.takeCause_hold .none hcls hl hst hesc]
      refine State.withdrawn_load (fun _ => Load.heldBy_keeps _ _) (fun k => ?_) hl hn (.inl hw)
      rw [Load.heldBy_eq]
    refine ⟨_, request_accepted ⟨hp, hsend⟩ hparse (by simp [stateRefusal_of hn, hst, LoadState.preSettling]), ?_⟩
    rw [haccept]
    refine ⟨hheld, apartFrom_answered _ (apartFrom_of (State.takeCause_kept _ _ _ s) hapart), ?_⟩
    simp only [State.answered, stateAnswer, hload, Option.map_some, Option.getD_some]
    rfl
  · obtain ⟨hheld, harm, hapart⟩ := State.takeCause_heldBy (s := s.modFlow a (FlowState.stopNoFlow r)) (.meter m) hcls
      hl hst (by rwa [State.modFlow_defn]) hw
    refine ⟨_, (event_powered hp).trans (congrArg _ (State.expireNoFlow_eq hrun hm)), hheld,
      apartFrom_of ((State.modFlow_kept _ _ s).trans (State.takeCause_kept _ _ _ _))
        ((State.modFlow_apart _).trans hapart), ?_⟩
    rw [harm]
    cases r <;> rfl

/-! ### ENDING (R10, R134) -/

theorem State.modEntry_head {s : State} {a : ArmId} {l : Load} (ch : InjId) (f : AddEntry → AddEntry)
    (hl : s.head a = some l) : (s.modHead a fun l => l.modEntry ch f).head a = some (l.modEntry ch f) := by
  rw [State.modHead_head (f := fun l => l.modEntry ch f) (fun _ h => ⟨rfl, h⟩), if_pos rfl, hl, Option.map_some]

/-- A firing test writes strokes at most in the head load. -/
theorem State.testFiring_head {s : State} {a : ArmId} {l : Load} (ch : InjId) (hl : s.head a = some l) :
    ∃ adds, (s.testFiring a ch).head a = some { l with adds := adds } := by
  unfold State.testFiring
  split
  · exact ⟨l.adds, hl⟩
  · split
    · exact ⟨l.adds, hl⟩
    · split
      · exact ⟨_, State.modEntry_head ch _ hl⟩
      · exact ⟨l.adds, hl⟩

theorem State.testAllFiring_head {s : State} {a : ArmId} {l : Load} (hl : s.head a = some l) :
    ∃ adds, (s.testAllFiring a).head a = some { l with adds := adds } :=
  State.forAll_keeps (P := fun t => ∃ adds, t.head a = some { l with adds := adds }) ⟨l.adds, hl⟩
    fun ch _ _ ⟨_, ht⟩ => (State.testFiring_head ch ht :)

theorem State.testAllFiring_arm (s : State) (a b : ArmId) : (s.testAllFiring a).arm b = s.arm b :=
  (State.testAllFiring_frame (W := (· = a)) (P := fun _ => False) rfl s).apart b id

theorem State.testAllFiring_apart {a : ArmId} {M : ArmId → Prop} {s : State} : Apart a M s (s.testAllFiring a) :=
  (State.testAllFiring_frame (W := (· = a)) (P := fun _ => False) rfl s).toApart (fun _ => .inl) fun _ => False.elim

/-- The split of an arm that does not participate hands no demand. -/
theorem State.formSplit_of_outside {a : ArmId} {s : State} (h : s.participates a = false) :
    s.formSplit a = s.applySplit a := by
  unfold State.formSplit
  split
  · rw [no_part_of_participates h]
  · rename_i hd
    rw [State.applySplit_of_not (by simpa using hd)]

theorem State.formSplit_apart {a : ArmId} {M : ArmId → Prop} {s : State} (h : s.participates a = false) :
    Apart a M s (s.formSplit a) := by
  rw [State.formSplit_of_outside h]
  exact (State.applySplit_frame (W := fun _ => False) (P := (· = a)) rfl s).toApart (fun _ => False.elim)
    fun _ => .inl

/-- What an entry to ENDING sets of the flow (R134). -/
def Arm.beginFlush (qty : Int) (start : Nat) (x : Arm) : Arm :=
  { x with flow := { x.flow with flushQty := qty, flushStart := start } }

/-- The state in which the head load of an arm has entered ENDING with a flush to deliver (R10, R134, R167). -/
def State.endingEntered (a : ArmId) (f : Load → Load) (qty : Int) (start : Nat) (s : State) : State :=
  State.testAllFiring a (State.formSplit a (s.withdrawn a f (Arm.beginFlush qty start)))

/-- What holds where a FLOWING load has begun its flush: at base only, its quantity fixed. -/
structure FlushBegun (a : ArmId) (m : Load) (qty : Int) (start : Nat) (s t : State) : Prop where
  head    : ∃ adds, t.head a = some { m with adds := adds }
  arm     : t.arm a = ((s.arm a).beginFlush qty start).setFlow (s.cappedDemand a) (s.cappedDemand a) 0
  outside : t.outside a
  apart   : Apart a (s.member a) s t

theorem State.endingEntered_spec {a : ArmId} {f : Load → Load} (qty : Int) (start : Nat) {s : State} {l : Load}
    (hf : ∀ l, l.state ≠ .ended → (f l).arm = l.arm ∧ (f l).state ≠ .ended) (hl : s.head a = some l)
    (hst : (f l).state = .ending) (hshare : (f l).share = 0)
    (ha : s.waits a = false ∨ s.participates a = false) :
    FlushBegun a (f l) qty start s (s.endingEntered a f qty start) := by
  obtain ⟨hhead, harm, hout, hapart⟩ :=
    State.withdrawn_spec (g := Arm.beginFlush qty start) hf (fun _ => ⟨rfl, rfl⟩) hl ha
  unfold State.endingEntered
  generalize s.withdrawn a f (Arm.beginFlush qty start) = u at hhead harm hout hapart ⊢
  have hdelivers : (f l).state.delivers = true := by rw [hst]; rfl
  have hbody : (f l).inBody = false := by
    rw [Load.inBody, hst]
    rfl
  have hsplit := State.formSplit_formed hhead hdelivers
  have hcap : u.cappedDemand a = s.cappedDemand a := by
    simp [State.cappedDemand, State.defn, harm, Arm.beginFlush]
  refine ⟨State.testAllFiring_head ((State.head_congr (State.formSplit_loads a u) a).trans hhead), ?_, ?_,
    (hapart.trans (State.formSplit_apart hout.participates)).trans State.testAllFiring_apart⟩
  · rw [State.testAllFiring_arm, hsplit.own, harm, hbody, hshare, hcap]
    rfl
  · have hsame : SameMembers u ((u.formSplit a).testAllFiring a) :=
      (u.formSplit_sameMembers a).trans (.of_header (State.testAllFiring_header _ _))
    exact hsame.outside hout

/-- The record that an END takes to ENDING (R10, R188). -/
def Load.endedBy (code : StopCode) (det : Detail) (l : Load) : Load :=
  (Load.fillStop code .endC det (l.keepDetail code det)).enterEnd

theorem Load.endedBy_eq (code : StopCode) (det : Detail) (l : Load) :
    l.endedBy code det =
      { l with
        state := .ending, share := 0
        holdDetails := (l.endedBy code det).holdDetails
        stop1 := (l.endedBy code det).stop1
        stop2 := (l.endedBy code det).stop2 } := by
  unfold Load.endedBy
  rw [Load.fillStop_eq, Load.keepDetail_eq]
  rfl

theorem Load.endedBy_keeps (code : StopCode) (det : Detail) {l : Load} (_ : l.state ≠ .ended) :
    (l.endedBy code det).arm = l.arm ∧ (l.endedBy code det).state ≠ .ended := by
  rw [Load.endedBy_eq]
  exact ⟨rfl, by simp⟩

/-- A cause taken as an END on a FLOWING load with a flush to deliver. -/
theorem State.takeOnLoad_end {s : State} {a : ArmId} {l : Load} (code : StopCode) (det : Detail)
    (hst : l.state = .flowing)
    (hqty : 0 < flushQuantity (s.recipeOf l).flush l.preset (s.defn a).a l.v) :
    s.takeOnLoad a code .endC det l =
      s.endingEntered a (Load.endedBy code det) (flushQuantity (s.recipeOf l).flush l.preset (s.defn a).a l.v)
        l.base.gross := by
  have hkeep : ∀ k : Load, k.state ≠ .ended →
      (k.keepDetail code det).arm = k.arm ∧ (k.keepDetail code det).state ≠ .ended := fun k hk =>
    ⟨by rw [Load.keepDetail_eq], by rwa [(Load.keepDetail_stage _ _ _).1]⟩
  simp only [State.takeOnLoad, asNotice, State.actEnd, hst]
  rw [if_neg (by decide), State.modHead_modHead _ hkeep]
  unfold State.enterEnding
  refine (if_neg (not_le.mpr hqty)).trans ?_
  rw [State.modHead_modHead]
  · rfl
  · intro k hk
    obtain ⟨harm, hne⟩ := hkeep k hk
    exact ⟨by rw [Load.fillStop_eq]; exact harm, by rwa [(Load.fillStop_stage _ _ _ _).1]⟩

/-- Settles O17: an END of a FLOWING load, be it requested or by an escalated HOLD. -/
theorem endBringsTheFlush : Obligations.EndBringsTheFlush := by
  intro a l s hp hl hst hw qty hqty ending
  have hrunning : s.running a = some l := by
    rw [State.running_of_head hl, hst]
    rfl
  have hending : ∀ (cls : Bool) {f : Load → Load} {t : State}, Kept s t → FlushBegun a (f l) qty l.base.gross s t →
      f l = { f l with number := l.number, state := .ending, v := l.v, share := 0, pendingOut := l.pendingOut
                       escalated := l.escalated || cls } → ending cls t := by
    intro cls f t hk ⟨⟨adds, hhead⟩, harm, hout, hapart⟩ hm
    refine ⟨⟨_, hhead, ?_⟩, ?_⟩
    · rw [hm]
      exact ⟨rfl, rfl, rfl, rfl, rfl, rfl⟩
    · rw [harm]
      exact ⟨rfl, rfl, rfl, valveCommand_zero _, rfl, hout.participates, hout.waits, apartFrom_of hk hapart⟩
  refine ⟨fun f n hsend hparse hn => ?_, fun hcls hlim hres => ?_⟩
  · obtain ⟨-, harm, -⟩ := State.head_some hl
    have haccept : endAccept n s = s.endingEntered a (Load.endedBy .endRequest .none) qty l.base.gross := by
      rw [endAccept, State.armOf_of hn, harm]
      have hno : escalates (s.defn a).resLimit .endC l = false := rfl
      simp only [State.takeCause, State.classOf, hrunning, hno]
      exact State.takeOnLoad_end _ _ hst hqty
    refine ⟨_, request_accepted ⟨hp, hsend⟩ hparse (by simp [stateRefusal_of hn, hst, LoadState.preSettling]), ?_⟩
    have hspec := State.endingEntered_spec (f := Load.endedBy .endRequest .none) qty l.base.gross
      (fun _ => Load.endedBy_keeps _ _) hl (by rw [Load.endedBy_eq]) (by rw [Load.endedBy_eq]) (.inl hw)
    have hkept : Kept s (endAccept n s) := State.takeCause_kept _ _ _ s
    rw [haccept] at hkept ⊢
    exact (show ending false _ from hending false (f := Load.endedBy .endRequest .none) hkept hspec
      (by rw [Load.endedBy_eq, Bool.or_false]) :)
  · have hesc : escalates (s.defn a).resLimit .hold l = true := by
      simp [escalates, hst, hlim, hres]
    have htake : s.takeCause a (.cause .driverStop) .none =
        s.endingEntered a (fun k => k.escalate.endedBy (.cause .driverStop) .none) qty l.base.gross := by
      simp only [State.takeCause, State.classOf, hcls, hrunning, hesc]
      refine (State.takeOnLoad_end (s := s.modHead a Load.escalate) _ _ hst hqty).trans ?_
      rw [State.endingEntered, State.withdrawn, State.modHead_modHead (f := Load.escalate) _ fun k hk => ⟨rfl, hk⟩]
      rfl
    have hspec := State.endingEntered_spec (f := fun k => k.escalate.endedBy (.cause .driverStop) .none) qty l.base.gross
      (fun k hk => Load.endedBy_keeps _ _ (l := k.escalate) hk) hl (by rw [Load.endedBy_eq]) (by rw [Load.endedBy_eq])
      (.inl hw)
    have hkept : Kept s (s.takeCause a (.cause .driverStop) .none) := State.takeCause_kept _ _ _ s
    rw [htake] at hkept
    refine ⟨_, (event_powered hp).trans (congrArg _ ((if_pos ?_).trans htake)), 
      hending true (f := fun k => k.escalate.endedBy (.cause .driverStop) .none) hkept hspec ?_⟩
    · rw [State.headIs_of_head hl, hst]
      rfl
    · dsimp only
      rw [Load.endedBy_eq]
      simp [Load.escalate]

end Sys2Proof.Machine

end

section
/-! PROOFS. The firing tests of an arm's channels, the proof and the miss of a stroke (R167 to R176), with the statement
about them (O38). -/

namespace Sys2Proof.Machine

/-! ### The firing tests of every channel of a load (R164, R167) -/

theorem updFirst_append_cons {α : Type} {p : α → Bool} {f : α → α} {as bs : List α} {x : α}
    (has : ∀ y ∈ as, p y = false) (hx : p x = true) : updFirst p f (as ++ x :: bs) = as ++ f x :: bs := by
  induction as with
  | nil => simp [updFirst, hx]
  | cons y ys ih =>
    rw [List.cons_append, updFirst, has y (by simp), ih fun z hz => has z (by simp [hz])]
    rfl

/-- An entry with its stroke counted where one was fired. -/
def AddEntry.counted (fires : Bool) (e : AddEntry) : AddEntry :=
  { e with fired := if fires then e.fired + 1 else e.fired }

theorem State.testFiring_of {s : State} {a : ArmId} {l : Load} {ch : InjId} {e : AddEntry} (hl : s.head a = some l)
    (hrun : l.state.inProgress = true) (he : (l.adds.find? fun e => e.inj == ch) = some e) :
    s.testFiring a ch =
      if s.mayFire a l e then
        State.modInjector ch (Injector.fire l)
          (s.modHead a fun l => l.modEntry ch fun e => { e with fired := e.fired + 1 })
      else s := by
  simp only [State.testFiring, State.running_of_head hl, hrun, if_true, he]

/-- A record with its additive entries written anew. -/
def Load.withAdds (adds : List AddEntry) (l : Load) : Load := { l with adds := adds }

theorem Load.withAdds_keeps (adds : List AddEntry) {l : Load} (hl : l.state ≠ .ended) :
    (l.withAdds adds).arm = l.arm ∧ (l.withAdds adds).state ≠ .ended := ⟨rfl, hl⟩

/-- An update that leaves the head load as it is. -/
theorem State.modHead_of_same {s : State} {a : ArmId} {l : Load} {f : Load → Load} (hl : s.head a = some l)
    (h : f l = l) : s.modHead a f = s := by
  have hid : updFirst (fun l : Load => l.arm == a && l.state != .ended) f s.loads = s.loads := by
    rw [updFirst_congr (g := fun k => k) fun x hx => by rw [Option.some.inj (hx.symm.trans hl), h]]
    rcases updFirst_cases (p := fun l : Load => l.arm == a && l.state != .ended) (f := fun k => k) (l := s.loads) with
      ⟨he, -⟩ | ⟨as, x, bs, he, -, -, he'⟩
    · exact he
    · rw [he', ← he]
  rw [State.modHead, hid]

/-- How far the firing tests of the channels of load `l` have come: made for `done`, still to make for `rest`. -/
structure Tested (a : ArmId) (l : Load) (s : State) (done rest : List AddEntry) (t : State) : Prop where
  only  : t = { s with loads := t.loads, injectors := t.injectors }
  loads : t.loads = (s.modHead a
            (Load.withAdds (done.map (fun e => e.counted (s.mayFire a l e)) ++ rest))).loads
  fired : ∀ e ∈ done, t.injector e.inj =
            if s.mayFire a l e then (s.injector e.inj).fire l else s.injector e.inj
  other : ∀ j, (∀ e ∈ done, e.inj ≠ j) → t.injector j = s.injector j

theorem Tested.head {a : ArmId} {l : Load} {s t : State} {done rest : List AddEntry} (h : Tested a l s done rest t)
    (hl : s.head a = some l) :
    t.head a = some (l.withAdds (done.map (fun e => e.counted (s.mayFire a l e)) ++ rest)) := by
  rw [State.head_congr h.loads, State.modHead_head fun _ => Load.withAdds_keeps _, if_pos rfl, hl, Option.map_some]

theorem Tested.step {a : ArmId} {l : Load} {s t : State} {done rest : List AddEntry} {e : AddEntry}
    (h : Tested a l s done (e :: rest) t) (hl : s.head a = some l) (hrun : l.state.inProgress = true)
    (hnew : ∀ x ∈ done, x.inj ≠ e.inj) : Tested a l s (done ++ [e]) rest (t.testFiring a e.inj) := by
  have hdone : ∀ x ∈ done.map fun x => x.counted (s.mayFire a l x), (x.inj == e.inj) = false := by
    intro x hx
    obtain ⟨y, hy, rfl⟩ := List.mem_map.mp hx
    simpa [AddEntry.counted] using hnew y hy
  have hfind : (done.map (fun x => x.counted (s.mayFire a l x)) ++ e :: rest).find? (fun x => x.inj == e.inj) =
      some e := by
    rw [List.find?_append, List.find?_eq_none.mpr fun x hx => by simp [hdone x hx]]
    simp
  have hinj : t.injector e.inj = s.injector e.inj := h.other e.inj hnew
  have hmay : t.mayFire a (l.withAdds (done.map (fun x => x.counted (s.mayFire a l x)) ++ e :: rest)) e =
      s.mayFire a l e := by
    have hbar : t.strokesBarred a = s.strokesBarred a := by
      rw [h.only]
      rfl
    have harm : t.arm a = s.arm a := by
      rw [h.only]
      rfl
    simp only [State.mayFire, hbar, harm, State.defn, hinj]
    rfl
  have hothers : ∀ j, (∀ x ∈ done ++ [e], x.inj ≠ j) → (∀ x ∈ done, x.inj ≠ j) ∧ e.inj ≠ j := fun j hj =>
    ⟨fun x hx => hj x (by simp [hx]), hj e (by simp)⟩
  rw [State.testFiring_of (h.head hl) hrun hfind, hmay]
  cases hfires : s.mayFire a l e with
  | false =>
    rw [if_neg Bool.false_ne_true]
    refine ⟨h.only, ?_, fun x hx => ?_, fun j hj => h.other j (hothers j hj).1⟩
    · rw [h.loads]
      simp [hfires, AddEntry.counted]
    · rcases List.mem_append.mp hx with hx | hx
      · exact h.fired x hx
      · rw [List.mem_singleton.mp hx, hfires, if_neg Bool.false_ne_true, hinj]
  | true =>
    rw [if_pos rfl]
    refine ⟨?_, ?_, fun x hx => ?_, fun j hj => ?_⟩
    · rw [h.only]
      rfl
    · have hstroke : (t.modHead a fun l => l.modEntry e.inj fun e => { e with fired := e.fired + 1 }).loads =
          ((s.modHead a (Load.withAdds (done.map (fun e => e.counted (s.mayFire a l e)) ++ e :: rest))).modHead a
            fun l => l.modEntry e.inj fun e => { e with fired := e.fired + 1 }).loads := by
        rw [State.modHead, h.loads]
        rfl
      refine hstroke.trans (congrArg State.loads ?_)
      rw [State.modHead_modHead _ fun _ => Load.withAdds_keeps _]
      refine State.modHead_congr hl ?_
      simp only [Load.modEntry, Load.withAdds]
      rw [updFirst_append_cons hdone (by simp)]
      simp [hfires, AddEntry.counted]
    · rw [State.modInjector_injector, State.modHead_injector]
      rcases List.mem_append.mp hx with hx | hx
      · rw [if_neg (hnew x hx)]
        exact h.fired x hx
      · rw [List.mem_singleton.mp hx, if_pos rfl, hinj, hfires, if_pos rfl]
        rfl
    · rw [State.modInjector_injector, if_neg fun e' => (hothers j hj).2 e'.symm, State.modHead_injector]
      exact h.other j (hothers j hj).1

theorem Tested.run {a : ArmId} {l : Load} {s : State} (hl : s.head a = some l) (hrun : l.state.inProgress = true)
    (rest : List AddEntry) : ∀ {done : List AddEntry} {t : State}, Tested a l s done rest t →
      ((done ++ rest).map (·.inj)).Nodup →
      Tested a l s (done ++ rest) [] (State.forAll (rest.map (·.inj)) (State.testFiring a) t) := by
  induction rest with
  | nil =>
    intro done t h _
    rw [List.append_nil]
    exact h
  | cons e rest ih =>
    intro done t h hn
    have hnew : ∀ x ∈ done, x.inj ≠ e.inj := by
      simp only [List.map_append, List.map_cons, List.nodup_append] at hn
      exact fun x hx => hn.2.2 x.inj (List.mem_map_of_mem hx) e.inj (by simp)
    have := ih (h.step hl hrun hnew) (by simpa using hn)
    simpa using this

/-- The firing tests of all channels of a load whose entries name different channels. -/
theorem State.testAllFiring_tested {s : State} {a : ArmId} {l : Load} (hl : s.head a = some l)
    (hrun : l.state.inProgress = true) (hn : (l.adds.map (·.inj)).Nodup) :
    Tested a l s l.adds [] (s.testAllFiring a) := by
  have hserve : s.servingChannels a = l.adds.map (·.inj) := by
    simp only [State.servingChannels, State.running_of_head hl, hrun, if_true]
  rw [State.testAllFiring, hserve]
  refine Tested.run hl hrun l.adds (done := []) ⟨rfl, ?_, fun _ h => absurd h (by simp), fun _ _ => rfl⟩ hn
  exact (congrArg State.loads (State.modHead_of_same hl rfl)).symm

/-! ### The firing test of one channel -/

theorem AddEntry.counted_false (e : AddEntry) : e.counted false = e := rfl

theorem Load.modEntry_find {l : Load} {j : InjId} {e : AddEntry} {f : AddEntry → AddEntry}
    (he : (l.adds.find? fun x => x.inj == j) = some e) (hf : ∀ x, (f x).inj = x.inj) :
    ((l.modEntry j f).adds.find? fun x => x.inj == j) = some (f e) := by
  rw [Load.modEntry, find?_updFirst fun x _ hx => by rw [hf]; exact hx, he, Option.map_some]

/-- What the firing test of one channel leaves. -/
structure Struck (a : ArmId) (l : Load) (ch : InjId) (fires : Bool) (s t : State) : Prop where
  head   : t.head a = some (if fires then l.modEntry ch (AddEntry.counted true) else l)
  own    : t.injector ch = if fires then (s.injector ch).fire l else s.injector ch
  others : ∀ k, k ≠ ch → t.injector k = s.injector k
  arms   : t.arms = s.arms
  header : t.header = s.header

theorem State.testFiring_struck {s : State} {a : ArmId} {l : Load} {ch : InjId} {e : AddEntry} (hl : s.head a = some l)
    (hrun : l.state.inProgress = true) (he : (l.adds.find? fun e => e.inj == ch) = some e) :
    Struck a l ch (s.mayFire a l e) s (s.testFiring a ch) := by
  rw [State.testFiring_of hl hrun he]
  cases s.mayFire a l e with
  | false => exact ⟨hl, rfl, fun _ _ => rfl, rfl, rfl⟩
  | true =>
    refine ⟨State.modEntry_head ch _ hl, State.modInjector_injector_same _ _ _, fun k hk => ?_, rfl, rfl⟩
    rw [if_pos rfl, State.modInjector_injector, if_neg hk, State.modHead_injector]

theorem State.mayFire_iff {s : State} {a : ArmId} {l : Load} {e : AddEntry}
    (hidle : (s.injector e.inj).state = .idle) :
    s.mayFire a l e = true ↔ s.strokesBarred a = false ∧
      (l.state.delivers = true ∨ l.state = .settling ∧ (s.arm a).endStage = .catchingUp ∧
        (s.injector e.inj).catchUp < (s.defn a).catchUp) ∧ e.consec < 3 ∧ e.proven < e.due := by
  simp [State.mayFire, firingTest, hidle, and_assoc]

/-! ### A stroke is over (R169, R170) -/

theorem State.testReadiness_of_not {s : State} {a : ArmId} {l : Load} (hl : s.head a = some l)
    (hs : l.state ≠ .settling) : s.testReadiness a = s := by
  simp [State.testReadiness, hl, hs]

theorem State.tryEnd_of_not {s : State} {a : ArmId} (h : s.endDue a = false) : s.tryEnd a = s := by
  unfold State.tryEnd
  split
  · rfl
  · rw [h]
    rfl

theorem State.endDue_of_not {s : State} {a : ArmId} {l : Load} (hl : s.head a = some l) (hs : l.state ≠ .settling) :
    s.endDue a = false := by
  simp [State.endDue, State.headIs_of_head hl, hs]

/-- With the load in no settle, a stroke that is over brings the next firing test alone. -/
theorem State.afterStroke_of_not {s : State} {a : ArmId} {l : Load} {ch : InjId} (ha : s.injectorArm ch = some a)
    (hl : s.head a = some l) (hs : l.state ≠ .settling) : s.afterStroke ch = s.testFiring a ch := by
  obtain ⟨adds, hhead⟩ := State.testFiring_head ch hl
  simp only [State.afterStroke, ha]
  rw [State.testReadiness_of_not hhead hs, State.tryEnd_of_not (State.endDue_of_not hhead hs)]

theorem State.modLoad_eq_modHead {s : State} {a : ArmId} {n : Nat} {l : Load} (f : Load → Load)
    (hl : s.head a = some l) (hn : s.load n = some l) : s.modLoad n f = s.modHead a f := by
  rw [State.modLoad, State.modHead, updFirst_test_congr hn hl]

/-- The state in which a stroke of a load's entry is over and its channel is free (R169, R170). -/
def State.strokeOver (a : ArmId) (ch : InjId) (f : AddEntry → AddEntry) (s : State) : State :=
  State.modInjector ch Injector.release (s.modHead a fun l => l.modEntry ch f)

section
variable {s : State} {a : ArmId} {l : Load} {ch : InjId} {e : AddEntry} {f : AddEntry → AddEntry}

theorem State.strokeOver_head (hl : s.head a = some l) : (s.strokeOver a ch f).head a = some (l.modEntry ch f) :=
  State.modEntry_head ch f hl

theorem State.strokeOver_injector : (s.strokeOver a ch f).injector ch = (s.injector ch).release :=
  State.modInjector_injector_same _ _ _

theorem State.strokeOver_injector_ne {k : InjId} (hk : k ≠ ch) : (s.strokeOver a ch f).injector k = s.injector k := by
  rw [State.strokeOver, State.modInjector_injector, if_neg hk, State.modHead_injector]

end

theorem State.takeProof_open {s : State} {ch : InjId} (hin : (s.injector ch).proofIn = .opened)
    (hbusy : (s.injector ch).state ≠ .idle) :
    s.takeProof ch = (s.modInjector ch fun j => { j with proofIn := .closed }).proveStroke ch := by
  simp [State.takeProof, hin, hbusy]

theorem State.proveStroke_of {s : State} {a : ArmId} {ch : InjId} {n : Nat} {l : Load} (hl : s.head a = some l)
    (hn : s.load n = some l) (hs : (s.injector ch).strokeLoad = some n) :
    s.proveStroke ch = (s.strokeOver a ch AddEntry.prove).afterStroke ch := by
  simp only [State.proveStroke, hs]
  rw [State.modLoad_eq_modHead _ hl hn]
  rfl

theorem State.missStroke_of {s : State} {a : ArmId} {ch : InjId} {n : Nat} {l : Load} (hl : s.head a = some l)
    (hn : s.load n = some l) (hs : (s.injector ch).strokeLoad = some n)
    (ht : (s.injector ch).proofTimer.isSome = true) :
    s.missStroke ch = State.afterStroke ch ((s.strokeOver a ch AddEntry.miss).raiseFail ch n) := by
  obtain ⟨x, hx⟩ := Option.isSome_iff_exists.mp ht
  simp only [State.missStroke, hx, hs]
  rw [State.modLoad_eq_modHead _ hl hn]
  rfl

/-- A channel that is free again, its settings those of before. -/
structure Released (s u : State) (ch : InjId) : Prop where
  own    : ∃ c, u.injector ch = { (s.injector ch).release with proofIn := c }
  others : ∀ k, k ≠ ch → u.injector k = s.injector k
  arms   : u.arms = s.arms
  header : u.header = s.header

/-- A stroke that is over, and the next one where the firing test holds. -/
theorem Struck.outcome {s u t : State} {a : ArmId} {l l' : Load} {ch : InjId} {fires : Bool} {x : AddEntry}
    {refire : Prop} (h : Struck a l' ch fires u t) (hu : Released s u ch)
    (hx : (l'.adds.find? fun y => y.inj == ch) = some x) (hst : l'.state = l.state) (hnum : l'.number = l.number)
    (hb : fires = true ↔ refire) :
    (∃ m x', t.head a = some m ∧ m.state = l.state ∧ (m.adds.find? fun y => y.inj == ch) = some x' ∧
      (refire → x' = { x with fired := x.fired + 1 }) ∧ (¬ refire → x' = x)) ∧
    (refire → (t.injector ch).state = .firing ∧ (t.injector ch).strokeLoad = some l.number ∧
      (t.injector ch).pulseTimer = some (s.injector ch).width ∧
      (t.injector ch).proofTimer = some (s.injector ch).proofTo) ∧
    (¬ refire → (t.injector ch).state = .idle ∧ (t.injector ch).strokeLoad = none ∧
      (t.injector ch).pulseTimer = none ∧ (t.injector ch).proofTimer = none) ∧
    t.arms = s.arms ∧ t.header = s.header ∧ ∀ k, k ≠ ch → t.injector k = s.injector k := by
  obtain ⟨c, hown⟩ := hu.own
  refine ⟨?_, fun hr => ?_, fun hr => ?_, h.arms.trans hu.arms, h.header.trans hu.header,
    fun k hk => (h.others k hk).trans (hu.others k hk)⟩
  · by_cases hr : refire
    · rw [hb.mpr hr] at h
      exact ⟨_, _, h.head, hst, Load.modEntry_find hx fun _ => rfl, fun _ => rfl, fun hn => absurd hr hn⟩
    · rw [Bool.eq_false_iff.mpr fun e => hr (hb.mp e)] at h
      exact ⟨_, _, h.head, hst, hx, fun hn => absurd hn hr, fun _ => rfl⟩
  · rw [h.own, hb.mpr hr, hown, ← hnum]
    exact ⟨rfl, rfl, rfl, rfl⟩
  · rw [h.own, Bool.eq_false_iff.mpr fun e => hr (hb.mp e), hown]
    exact ⟨rfl, rfl, rfl, rfl⟩

theorem State.strokeOver_released {s s0 : State} {a : ArmId} {ch : InjId} {f : AddEntry → AddEntry}
    (h : s0 = s ∨ s0 = s.modInjector ch fun j => { j with proofIn := .closed }) :
    Released s (s0.strokeOver a ch f) ch := by
  rcases h with rfl | rfl
  · exact ⟨⟨_, State.strokeOver_injector⟩, fun k hk => State.strokeOver_injector_ne hk, rfl, rfl⟩
  · refine ⟨⟨.closed, ?_⟩, fun k hk => ?_, rfl, rfl⟩
    · rw [State.strokeOver_injector, State.modInjector_injector_same]
      rfl
    · rw [State.strokeOver_injector_ne hk, State.modInjector_injector, if_neg hk]

theorem State.raiseFail_of {s : State} {ch : InjId} {n : Nat} {l : Load} {e : AddEntry} (hn : s.load n = some l)
    (he : (l.adds.find? fun e => e.inj == ch) = some e) :
    s.raiseFail ch n =
      if 3 ≤ e.consec then s.takeCause l.arm (.cause .additiveFail) (.injector ch) else s := by
  simp [State.raiseFail, hn, he]

/-- Where the load neither delivers nor settles, no stroke is fired. -/
theorem State.testFiring_of_not {s : State} {a : ArmId} {l : Load} (ch : InjId) (hl : s.head a = some l)
    (hd : l.state.delivers = false) (hs : l.state ≠ .settling) : s.testFiring a ch = s := by
  unfold State.testFiring
  split
  · rfl
  · rename_i k hk
    obtain rfl : k = l := Option.some.inj ((State.running_some hk).1.symm.trans hl)
    split
    · rfl
    · rw [if_neg]
      simp [State.mayFire, firingTest, hd, hs]

theorem State.injectorArm_congr {s t : State} (h : ∀ a, (t.arm a).defn = (s.arm a).defn) (j : InjId) :
    t.injectorArm j = s.injectorArm j := by
  simp only [State.injectorArm, h]

/-! ### The end of a settle (R14, R176) -/

theorem mem_updFirst_of_find {α : Type} {p : α → Bool} {f : α → α} {l : List α} {x : α} (h : l.find? p = some x) :
    f x ∈ updFirst p f l := by
  induction l with
  | nil => cases h
  | cons y ys ih =>
    rw [List.find?_cons] at h
    rw [updFirst]
    cases hp : p y with
    | true =>
      rw [hp] at h
      cases h
      simp
    | false =>
      rw [hp] at h
      simp [ih h]

/-- What the entry to ENDED leaves. -/
structure Concluded (a : ArmId) (m : Load) (s t : State) : Prop where
  record    : m ∈ t.loads
  injectors : t.injectors = s.injectors
  flag      : t.attention.pending[Source.loadEnded.index] = true
  arm       : t.arm a = { s.arm a with endStage := .none, endReported := false }

theorem State.enterEnded_concluded {s : State} {a : ArmId} {l : Load} (hl : s.head a = some l) :
    Concluded a (s.concludeLoad l.settledOutcome (s.arm a).flow.overrun l) s (s.enterEnded a l) := by
  refine ⟨?_, ?_, State.attend_pending_same _ _, ?_⟩
  · rw [State.enterEnded, State.attend_loads, State.lowerReference_loads, State.modArm_loads]
    exact mem_updFirst_of_find hl
  · rw [State.enterEnded, State.lowerReference_eq]
    rfl
  · rw [State.enterEnded, State.attend_arm, State.lowerReference_arm, State.modArm_arm_same]
    rfl

/-- An arm whose end readiness has been reported (R176). -/
def Arm.reportEnd (x : Arm) : Arm :=
  { x with endReported := true, endStage := if x.endStage == .tripped then .tripped else .done }

theorem State.testReadiness_of_quiet {s : State} {a : ArmId} {l : Load} (hl : s.head a = some l)
    (hs : l.state = .settling) (hset : (s.arm a).flow.settleComplete = true) (hrep : (s.arm a).endReported = false)
    (hq : s.channelsQuiet a l = true) : s.testReadiness a = s.modArm a Arm.reportEnd := by
  simp only [State.testReadiness, hl, hs, hset, hrep, hq]
  rfl

/-- With both reports, a settled load enters ENDED (R14). -/
theorem State.tryEnd_of_due {s : State} {a : ArmId} {l : Load} (hl : s.head a = some l) (hs : l.state = .settling)
    (hset : (s.arm a).flow.settleComplete = true) (hrep : (s.arm a).endReported = true) :
    s.tryEnd a = s.enterEnded a l := by
  have hdue : s.endDue a = true := by simp [State.endDue, State.headIs_of_head hl, hs, hset, hrep]
  simp only [State.tryEnd, hl, hdue, if_true]

/-- With every channel quiet, a settled load's end is reported and the load enters ENDED. -/
theorem State.tryEnd_of_quiet {s : State} {a : ArmId} {l : Load} (hl : s.head a = some l) (hs : l.state = .settling)
    (hset : (s.arm a).flow.settleComplete = true) (hrep : (s.arm a).endReported = false)
    (hq : s.channelsQuiet a l = true) :
    State.tryEnd a (s.testReadiness a) = (s.modArm a Arm.reportEnd).enterEnded a l := by
  rw [State.testReadiness_of_quiet hl hs hset hrep hq]
  refine State.tryEnd_of_due (s := s.modArm a Arm.reportEnd) hl hs ?_ ?_ <;> rw [State.modArm_arm_same]
  · exact hset
  · rfl

/-- With a channel busy, a settled load whose end has not been reported stays in SETTLING. -/
theorem State.tryEnd_of_busy {s : State} {a : ArmId} {l : Load} (hl : s.head a = some l)
    (hrep : (s.arm a).endReported = false) (hq : s.channelsQuiet a l = false) :
    s.testReadiness a = s ∧ s.tryEnd a = s := by
  refine ⟨?_, State.tryEnd_of_not ?_⟩
  · simp [State.testReadiness, hl, hq]
  · simp [State.endDue, hrep]

theorem State.channelsQuiet_false {s : State} {a : ArmId} {l : Load} {e : AddEntry} (he : e ∈ l.adds)
    (h : (s.injector e.inj).state ≠ .idle ∨ s.mayFire a l e = true) : s.channelsQuiet a l = false := by
  rw [State.channelsQuiet, List.all_eq_false]
  refine ⟨e, he, ?_⟩
  rcases h with h | h <;> simp [h]

theorem State.channelsQuiet_true {s : State} {a : ArmId} {l : Load}
    (h : ∀ e ∈ l.adds, (s.injector e.inj).state = .idle ∧ s.mayFire a l e = false) : s.channelsQuiet a l = true := by
  rw [State.channelsQuiet, List.all_eq_true]
  intro e he
  simp [h e he]

/-- With one entry to a channel, an update of the channel's entry is one over all entries. -/
theorem updFirst_eq_map {ch : InjId} {f : AddEntry → AddEntry} {l : List AddEntry} (hn : (l.map (·.inj)).Nodup) :
    updFirst (fun e => e.inj == ch) f l = l.map fun e => if e.inj = ch then f e else e := by
  induction l with
  | nil => rfl
  | cons x xs ih =>
    rw [List.map_cons, List.nodup_cons] at hn
    rw [updFirst, List.map_cons]
    by_cases hx : x.inj = ch
    · have hrest : ∀ e ∈ xs, (if e.inj = ch then f e else e) = id e := fun e he => if_neg fun h => hn.1 <| by
        rw [hx, ← h]
        exact List.mem_map_of_mem he
      rw [if_pos (by simpa using hx), if_pos hx, List.map_congr_left hrest, List.map_id]
    · rw [if_neg (by simpa using hx), if_neg hx, ih hn.2]

section
variable {s : State} {a : ArmId} {l : Load} {j : InjId} {e : AddEntry}

theorem exec_proofArrival (hp : s.powered = true) (hl : s.head a = some l) (hn : s.load l.number = some l)
    (hload : (s.injector j).strokeLoad = some l.number) (hbusy : (s.injector j).state ≠ .idle)
    (hin : (s.injector j).proofIn = .opened) :
    exec (.proofArrival j) s = .next (State.afterStroke j
      ((s.modInjector j fun x => { x with proofIn := .closed }).strokeOver a j AddEntry.prove)) := by
  have hload0 : ((s.modInjector j fun x => { x with proofIn := .closed }).injector j).strokeLoad = some l.number := by
    rw [State.modInjector_injector_same]
    exact hload
  refine (event_powered hp).trans (congrArg _ ((State.takeProof_open hin hbusy).trans ?_))
  exact State.proveStroke_of (s := s.modInjector j fun x => { x with proofIn := .closed }) hl hn hload0

theorem exec_proofTimerExpiry (hp : s.powered = true) (hl : s.head a = some l) (hn : s.load l.number = some l)
    (he : (l.adds.find? fun x => x.inj == j) = some e) (hload : (s.injector j).strokeLoad = some l.number)
    (ht : (s.injector j).proofTimer.isSome = true) :
    exec (.proofTimerExpiry j) s = .next (State.afterStroke j
      (if 3 ≤ e.consec + 1 then
        (s.strokeOver a j AddEntry.miss).takeCause a (.cause .additiveFail) (.injector j)
      else s.strokeOver a j AddEntry.miss)) := by
  obtain ⟨-, harm, -⟩ := State.head_some hl
  have hmissed : (s.strokeOver a j AddEntry.miss).load l.number = some (l.modEntry j AddEntry.miss) :=
    State.modHead_load hl hn fun _ => rfl
  have harm' : (l.modEntry j AddEntry.miss).arm = a := harm
  refine (event_powered hp).trans (congrArg _ ((State.missStroke_of hl hn hload ht).trans ?_))
  rw [State.raiseFail_of hmissed (Load.modEntry_find he fun _ => rfl), harm']
  rfl

/-- The third miss in a row holds a FLOWING load, and no stroke follows (R170). -/
theorem State.thirdMiss_held (ha : s.injectorArm j = some a) (hl : s.head a = some l) (hst : l.state = .flowing)
    (hcls : s.causes[Cause.additiveFail.index] = .hold) (hesc : notEscalated (s.defn a) l) (hw : s.waits a = false) :
    let t := State.afterStroke j ((s.strokeOver a j AddEntry.miss).takeCause a (.cause .additiveFail) (.injector j))
    heldBy .additiveFail (.injector j) a l t ∧ apartFrom a s t := by
  obtain ⟨hby, -, hap⟩ := State.takeCause_heldBy (s := s.strokeOver a j AddEntry.miss) (c := .additiveFail)
    (.injector j) hcls (State.strokeOver_head hl) hst hesc hw
  have hkept : Kept s (s.strokeOver a j AddEntry.miss) :=
    Kept.trans (t := s.modHead a fun l => l.modEntry j AddEntry.miss)
      (State.modHead_kept fun k hk => Load.modEntry_kept j hk fun _ => rfl)
      (State.modInjector_kept (Injector.release_kept _))
  have hapart : Apart a (s.member a) s (s.strokeOver a j AddEntry.miss) :=
    Apart.trans (t := s.modHead a fun l => l.modEntry j AddEntry.miss) (State.modHead_apart fun _ hk => ⟨rfl, hk⟩)
      (State.modInjector_apart _ _)
  replace hkept := hkept.trans (State.takeCause_kept a (.cause .additiveFail) (.injector j) _)
  replace hapart := hapart.trans hap
  generalize (s.strokeOver a j AddEntry.miss).takeCause a (.cause .additiveFail) (.injector j) = t at *
  obtain ⟨m, hm, -, hmst, -⟩ := hby.1
  have hsame : State.afterStroke j t = t := by
    rw [State.afterStroke_of_not ((State.injectorArm_congr (fun b => (hkept.arm b).defn) j).trans ha) hm
      (by rw [hmst]; decide), State.testFiring_of_not j hm (by rw [hmst]; rfl) (by rw [hmst]; decide)]
  dsimp only
  rw [hsame]
  exact ⟨hby, apartFrom_of hkept hapart⟩

theorem State.mayFire_strokeOver {s0 : State} {f : AddEntry → AddEntry} (hej : e.inj = j) (hfj : (f e).inj = e.inj)
    (h : s0 = s ∨ s0 = s.modInjector j fun x => { x with proofIn := .closed }) :
    (s0.strokeOver a j f).mayFire a (l.modEntry j f) (f e) = true ↔ noStroke s a = false ∧
      (l.state.delivers = true ∨ l.state = .settling ∧ (s.arm a).endStage = .catchingUp ∧
        (s.injector j).catchUp < (s.defn a).catchUp) ∧ (f e).consec < 3 ∧ (f e).proven < (f e).due := by
  have hidle : ((s0.strokeOver a j f).injector (f e).inj).state = .idle := by
    rw [hfj, hej, State.strokeOver_injector]
    rfl
  have hcatch : ((s0.strokeOver a j f).injector j).catchUp = (s.injector j).catchUp := by
    obtain ⟨c, hc⟩ := (State.strokeOver_released (a := a) (f := f) h).own
    rw [hc]
    rfl
  rw [State.mayFire_iff hidle, hfj, hej, hcatch]
  rcases h with rfl | rfl <;> rfl

/-- What holds once a stroke is over with the load not in SETTLING: the next one fired where it is owed. -/
theorem State.freeStroke_outcome {s0 : State} {f : AddEntry → AddEntry} (ha : s.injectorArm j = some a)
    (hl : s.head a = some l) (hst : l.state = .flowing ∨ l.state = .ending ∨ l.state = .held)
    (he : (l.adds.find? fun x => x.inj == j) = some e) (hf : ∀ x, (f x).inj = x.inj) (hc : (f e).consec < 3)
    (h : s0 = s ∨ s0 = s.modInjector j fun x => { x with proofIn := .closed }) :
    Struck a (l.modEntry j f) j (decide (noStroke s a = false ∧ l.state ≠ .held ∧ (f e).proven < (f e).due))
      (s0.strokeOver a j f) ((s0.strokeOver a j f).afterStroke j) := by
  have hej : e.inj = j := by simpa using List.find?_some he
  have hrun : l.state.inProgress = true := by rcases hst with h | h | h <;> rw [h] <;> rfl
  have hns : l.state ≠ .settling := by rcases hst with h | h | h <;> rw [h] <;> decide
  have hhead : (s0.strokeOver a j f).head a = some (l.modEntry j f) := by
    rcases h with rfl | rfl <;> exact State.modEntry_head j f hl
  have harm : (s0.strokeOver a j f).injectorArm j = some a := by
    rcases h with rfl | rfl <;> exact ha
  have hfires : (s0.strokeOver a j f).mayFire a (l.modEntry j f) (f e) =
      decide (noStroke s a = false ∧ l.state ≠ .held ∧ (f e).proven < (f e).due) := by
    rw [Bool.eq_iff_iff, State.mayFire_strokeOver hej (hf e) h, decide_eq_true_eq]
    rcases hst with hst | hst | hst <;> simp [hst, LoadState.delivers, hc]
  rw [State.afterStroke_of_not harm hhead hns, ← hfires]
  exact State.testFiring_struck hhead hrun (Load.modEntry_find he hf)

theorem State.mayFire_of_done {s : State} {a : ArmId} {l : Load} {x : AddEntry} (h : x.due ≤ x.proven) :
    s.mayFire a l x = false := by
  simp [State.mayFire, firingTest, h]

/-- A stroke that is over with the load in SETTLING and no stroke due there brings the end of the load (R14, R176). -/
theorem State.settledStroke_ends {u : State} (ha : u.injectorArm j = some a) (hl : u.head a = some l)
    (hset : l.state = .settling) (he : (l.adds.find? fun x => x.inj == j) = some e)
    (hcomplete : (u.arm a).flow.settleComplete = true) (hrep : (u.arm a).endReported = false)
    (hno : u.mayFire a l e = false)
    (hq : ∀ x ∈ l.adds, (u.injector x.inj).state = .idle ∧ u.mayFire a l x = false) :
    u.afterStroke j = (u.modArm a Arm.reportEnd).enterEnded a l := by
  have hrun : l.state.inProgress = true := by rw [hset]; rfl
  have hfire : u.testFiring a j = u := by
    rw [State.testFiring_of hl hrun he, hno]
    rfl
  simp only [State.afterStroke, ha, hfire]
  exact State.tryEnd_of_quiet hl hset hcomplete hrep (State.channelsQuiet_true hq)

end

/-- Settles O38, by the state of the load and the event. -/
theorem strokesAreProvenOrMissed : Obligations.StrokesAreProvenOrMissed := by
  intro j a l e s hp ha hl hn he hload fired freed stroke
  have hej : e.inj = j := by simpa using List.find?_some he
  refine ⟨fun hst => ⟨fun hbusy hin => ⟨_, exec_proofArrival hp hl hn hload hbusy hin, ?_⟩,
    fun ht hc => ⟨_, exec_proofTimerExpiry hp hl hn he hload ht, ?_⟩,
    fun ht hc hflow hcls hesc hw => ⟨_, exec_proofTimerExpiry hp hl hn he hload ht, ?_⟩⟩,
    fun hset hcomplete hrep hstage hbusy hin hnodup => ?_⟩
  · exact (State.freeStroke_outcome (f := AddEntry.prove) ha hl hst he (fun _ => rfl) (by simp [AddEntry.prove])
      (.inr rfl)).outcome
      (State.strokeOver_released (.inr rfl)) (Load.modEntry_find he fun _ => rfl) rfl rfl decide_eq_true_iff
  · rw [if_neg (Nat.not_le.mpr hc)]
    exact (State.freeStroke_outcome (f := AddEntry.miss) ha hl hst he (fun _ => rfl) hc (.inl rfl)).outcome
      (State.strokeOver_released (.inl rfl)) (Load.modEntry_find he fun _ => rfl) rfl rfl decide_eq_true_iff
  · rw [if_pos hc]
    exact State.thirdMiss_held ha hl hflow hcls hesc hw
  · intro refire
    have hrun : l.state.inProgress = true := by rw [hset]; rfl
    have hfires := State.mayFire_strokeOver (s := s) (a := a) (l := l) (f := AddEntry.prove) hej rfl (.inr rfl)
    have hfind := Load.modEntry_find (f := AddEntry.prove) he fun _ => rfl
    have hreleased := State.strokeOver_released (s := s) (a := a) (ch := j) (f := AddEntry.prove) (.inr rfl)
    have hhead : ((s.modInjector j fun x => { x with proofIn := .closed }).strokeOver a j AddEntry.prove).head a =
        some (l.modEntry j AddEntry.prove) := State.modEntry_head j _ hl
    have hexec := exec_proofArrival hp hl hn hload hbusy hin
    have hua : ((s.modInjector j fun x => { x with proofIn := .closed }).strokeOver a j AddEntry.prove).injectorArm j =
      some a := ha
    have hua' : ((s.modInjector j fun x => { x with proofIn := .closed }).strokeOver a j AddEntry.prove).arm a =
      s.arm a := rfl
    generalize (s.modInjector j fun x => { x with proofIn := .closed }).strokeOver a j AddEntry.prove = u at *
    refine ⟨fun hr => ?_, fun hr hquiet => ?_⟩
    · have hmay : u.mayFire a (l.modEntry j AddEntry.prove) e.prove = true :=
        hfires.mpr ⟨hr.1, .inr ⟨hset, hr.2.1, hr.2.2.1⟩, by simp [AddEntry.prove], hr.2.2.2⟩
      have hstruck := State.testFiring_struck hhead hrun hfind
      rw [hmay] at hstruck
      have hout := hstruck.outcome (refire := True) hreleased hfind rfl rfl (by simp)
      have hbusy' : ((u.testFiring a j).injector j).state ≠ .idle := by
        rw [(hout.2.1 trivial).1]
        decide
      have harm : (u.testFiring a j).arm a = s.arm a := by
        rw [State.arm, hstruck.arms, ← State.arm, hua']
      have hquiet : (u.testFiring a j).channelsQuiet a ((l.modEntry j AddEntry.prove).modEntry j (.counted true)) =
          false := by
        have hmem := List.mem_of_find?_eq_some
          (Load.modEntry_find (f := AddEntry.counted true) hfind fun _ => rfl)
        refine State.channelsQuiet_false hmem (.inl ?_)
        rwa [show (AddEntry.counted true e.prove).inj = j from hej]
      obtain ⟨hready, hend⟩ := State.tryEnd_of_busy hstruck.head (by rw [harm]; exact hrep) hquiet
      have hsame : u.afterStroke j = u.testFiring a j := by
        simp only [State.afterStroke, hua]
        rw [hready, hend]
      refine ⟨_, hexec.trans (congrArg _ hsame), hout, ?_⟩
      obtain ⟨c, hc⟩ := hreleased.own
      rw [hstruck.own, hc]
      simp [Injector.fire, Injector.release, Load.modEntry, hset]
    · have hmay : u.mayFire a (l.modEntry j AddEntry.prove) e.prove = false := by
        rw [Bool.eq_false_iff]
        intro h
        obtain ⟨hbar, hd | ⟨-, hs, hcatch⟩, -, hdue⟩ := hfires.mp h
        · rw [hset] at hd
          cases hd
        · exact hr ⟨hbar, hs, hcatch, hdue⟩
      have hadds : (l.modEntry j AddEntry.prove).adds = l.adds.map fun x => if x.inj = j then x.prove else x :=
        updFirst_eq_map hnodup
      have hnodup' : ((l.modEntry j AddEntry.prove).adds.map (·.inj)).Nodup := by
        rw [show (l.modEntry j AddEntry.prove).adds.map (·.inj) = l.adds.map (·.inj) from updFirst_map fun _ _ _ => rfl]
        exact hnodup
      have hothers : ∀ x ∈ (l.modEntry j AddEntry.prove).adds,
          (u.injector x.inj).state = .idle ∧ u.mayFire a (l.modEntry j AddEntry.prove) x = false := by
        intro x hx
        by_cases hxj : x.inj = j
        · obtain rfl : x = e.prove := List.inj_on_of_nodup_map hnodup' hx (List.mem_of_find?_eq_some hfind)
            (hxj.trans hej.symm)
          obtain ⟨c, hc⟩ := hreleased.own
          exact ⟨by rw [hxj, hc]; rfl, hmay⟩
        · rw [hadds] at hx
          obtain ⟨y, hy, rfl⟩ := List.mem_map.mp hx
          split at hxj
          · exact absurd ‹y.inj = j› hxj
          · rw [if_neg hxj]
            obtain ⟨hyi, hyd⟩ := hquiet y hy hxj
            rw [hreleased.others _ hxj]
            exact ⟨hyi, State.mayFire_of_done hyd⟩
      have hends := State.settledStroke_ends (u := u) hua hhead hset hfind (by rw [hua']; exact hcomplete)
        (by rw [hua']; exact hrep) hmay hothers
      obtain ⟨hrec, hinj, hflag, harm⟩ := State.enterEnded_concluded (s := u.modArm a Arm.reportEnd) hhead
      refine ⟨_, _, hexec.trans (congrArg _ hends), ?_, hrec, rfl, rfl, rfl, ?_, ?_, ?_, ?_, hflag⟩
      · obtain ⟨c, hc⟩ := hreleased.own
        have hinj' : (State.enterEnded a (l.modEntry j AddEntry.prove) (u.modArm a Arm.reportEnd)).injector j =
            u.injector j := by
          rw [State.injector, hinj]
          rfl
        simp only [freed, hinj', hc]
        exact ⟨rfl, rfl, rfl, rfl⟩
      · rw [State.modArm_arm_same, hua']
        rfl
      · simp only [State.concludeLoad, hadds, List.map_map]
        refine List.map_congr_left fun x _ => ?_
        simp only [Function.comp]
        split <;> rfl
      · intro x hx
        obtain ⟨y, -, rfl⟩ := List.mem_map.mp hx
        rfl
      · rw [harm]

end Sys2Proof.Machine

end

section
/-! PROOFS. A TRIP at one arm (R8, R11, R173, R193), the permissive inputs (O43), the maximum settle and the settle expiry
(O46). -/

namespace Sys2Proof.Machine

/-! ### A TRIP on a load in progress (R8, R11, R173, R188) -/

theorem State.takeCause_trip {s : State} {a : ArmId} {c : Cause} (det : Detail) (hcls : s.causes[c.index] = .trip) :
    s.takeCause a (.cause c) det = s.tripArm a c det := by
  simp only [State.takeCause, State.classOf, hcls]

theorem State.tripArm_unlocked {s : State} {a : ArmId} {c : Cause} {det : Detail} (h : (s.arm a).locked = false) :
    s.tripArm a c det = s.laneTrip c det a := by
  simp [State.tripArm, h]

theorem Load.enterSettle_keeps (how : Option PendingOutcome) {l : Load} (_ : l.state ≠ .ended) :
    (l.enterSettle how).arm = l.arm ∧ (l.enterSettle how).state ≠ .ended := ⟨rfl, by simp [Load.enterSettle]⟩

/-- The record that a TRIP takes to SETTLING (R8, R188). -/
def Load.trippedBy (c : Cause) (det : Detail) (l : Load) : Load :=
  (l.fillStop (.cause c) .trip det).enterSettle (some .tripped)

theorem Load.trippedBy_keeps (c : Cause) (det : Detail) {l : Load} (_ : l.state ≠ .ended) :
    (l.trippedBy c det).arm = l.arm ∧ (l.trippedBy c det).state ≠ .ended := by
  unfold Load.trippedBy
  rw [Load.fillStop_eq]
  exact ⟨rfl, by simp [Load.enterSettle]⟩

/-- Everything a TRIP leaves of the record. -/
theorem Load.trippedBy_eq (c : Cause) (det : Detail) (l : Load) :
    l.trippedBy c det =
      { l with
        state := .settling, admitFrom := none, share := 0, pendingOut := some .tripped
        flushInc := (l.trippedBy c det).flushInc
        stop1 := if l.stop1.isNone then some (l.stopRecord (.cause c) .trip det) else l.stop1
        stop2 := (l.trippedBy c det).stop2 } := by
  rw [← Load.fillStop_stop1]
  unfold Load.trippedBy
  rw [Load.fillStop_eq]
  rfl

/-- An arm at which a load has been tripped (R173). -/
def Arm.tripStage (x : Arm) : Arm := { x with endStage := .tripped }

/-- The channels of a load have their solenoids switched off. -/
theorem State.cutStrokes_rest (a : ArmId) (s : State) :
    s.cutStrokes a = { s with
      arms := (s.modArm a Arm.tripStage).arms
      injectors := (s.cutStrokes a).injectors } := by
  unfold State.cutStrokes
  have h : State.forAll (s.servingChannels a) (fun j t => t.modInjector j Injector.cut) s =
      { s with injectors := (State.forAll (s.servingChannels a) (fun j t => t.modInjector j Injector.cut) s).injectors } :=
    State.forAll_keeps (P := fun t => t = { s with injectors := t.injectors }) rfl fun j _ t ht => by rw [ht]; rfl
  rw [h]
  rfl

theorem State.cutStrokes_head (a b : ArmId) (s : State) : (s.cutStrokes a).head b = s.head b := by
  rw [State.cutStrokes_rest]
  rfl

theorem State.cutStrokes_arm (a b : ArmId) (s : State) :
    (s.cutStrokes a).arm b = if b = a then (s.arm b).tripStage else s.arm b := by
  rw [State.cutStrokes_rest]
  exact State.modArm_arm a b Arm.tripStage s

theorem State.cutStrokes_header (a : ArmId) (s : State) : (s.cutStrokes a).header = s.header := by
  rw [State.cutStrokes_rest]

theorem State.laneTrip_running {s : State} {a : ArmId} {l : Load} (c : Cause) (det : Detail) (hl : s.head a = some l)
    (hst : l.state.preSettling = true) :
    s.laneTrip c det a =
      State.lockArm a c det (State.cutStrokes a (s.withdrawn a (Load.trippedBy c det) Arm.startSettle)) := by
  have hrun : l.state.inProgress = true := by
    revert hst
    cases l.state <;> decide
  have hsome : (s.running a).isSome = true := by simp [State.running_of_head hl, hrun]
  have hkeep : ∀ k : Load, k.state ≠ .ended → (k.fillStop (.cause c) .trip det).arm = k.arm ∧
      (k.fillStop (.cause c) .trip det).state ≠ .ended := fun k hk =>
    ⟨by rw [Load.fillStop_eq], by rwa [(Load.fillStop_stage _ _ _ _).1]⟩
  have hfilled : (s.modHead a (Load.fillStop (.cause c) .trip det)).head a =
      some (l.fillStop (.cause c) .trip det) := by
    rw [State.modHead_head hkeep, if_pos rfl, hl, Option.map_some]
  have hstate : (l.fillStop (.cause c) .trip det).state = l.state := (Load.fillStop_stage _ _ _ _).1
  have hnot : (l.state == .settling) = false := by
    revert hst
    cases l.state <;> decide
  simp only [State.laneTrip, hsome, if_true, State.actTrip, State.running_of_head hfilled, hstate, hrun, hnot]
  rw [if_neg Bool.false_ne_true, State.enterSettling_eq, if_pos rfl, State.settleEntered, State.modHead_modHead _ hkeep]
  rfl

/-- What holds where a TRIP has been taken at an arm that was not LOCKED. -/
theorem State.laneTrip_trippedBy {s : State} {a : ArmId} {l : Load} (c : Cause) (det : Detail) (hl : s.head a = some l)
    (hst : l.state.preSettling = true) (hlock : (s.arm a).locked = false)
    (ha : s.waits a = false ∨ s.participates a = false) :
    trippedBy c det a l (s.laneTrip c det a) ∧
      (s.laneTrip c det a).arm a =
        { (s.arm a).startSettle with endStage := .tripped, locked := true, lockRecord := some (c, det) } := by
  obtain ⟨hhead, harm, hout, -⟩ := State.withdrawn_spec (f := Load.trippedBy c det) (g := Arm.startSettle)
    (fun _ => Load.trippedBy_keeps c det) (fun _ => ⟨rfl, rfl⟩) hl ha
  have harm' : (s.laneTrip c det a).arm a =
      { (s.arm a).startSettle with endStage := .tripped, locked := true, lockRecord := some (c, det) } := by
    have hopen : (s.arm a).startSettle.locked = false := hlock
    rw [State.laneTrip_running c det hl hst, State.lockArm, State.attend_arm, State.modArm_arm_same,
      State.cutStrokes_arm, if_pos rfl, harm, if_neg (by rw [Arm.tripStage, hopen]; decide)]
    rfl
  have hheader : (s.laneTrip c det a).header = (s.withdrawn a (Load.trippedBy c det) Arm.startSettle).header := by
    rw [State.laneTrip_running c det hl hst, State.lockArm, State.attend_header, State.modArm_header,
      State.cutStrokes_header]
  have hout' : (s.laneTrip c det a).outside a := by
    rw [State.outside, hheader]
    exact hout
  refine ⟨⟨⟨l.trippedBy c det, ?_, ?_⟩, ?_⟩, harm'⟩
  · rw [State.laneTrip_running c det hl hst, State.lockArm, State.attend_head, State.modArm_head,
      State.cutStrokes_head, hhead]
  · rw [Load.trippedBy_eq]
    refine ⟨rfl, rfl, rfl, rfl, rfl, fun h => ?_⟩
    simp [h, Load.stopRecord, Load.stopPhase]
  · rw [harm']
    refine ⟨rfl, rfl, rfl, rfl, rfl, hout'.participates, hout'.waits, ?_⟩
    rw [State.laneTrip_running c det hl hst]
    exact State.attend_pending_same _ _

/-! ### The permissive inputs (R179, R180) -/

/-- An arm whose input has left its required level (R180). -/
def Arm.dropped (k : PermId) (level : Contact) (x : Arm) : Arm :=
  { x with levels := x.levels.set k level, latched := insertInput k x.latched, permissive := some false }

theorem permissive_of_drop {d : ArmDef} {k : PermId} {u : PermUse} {level : Contact} {levels : Vector Contact 8}
    (hu : d.perms[k] = some u) (hl : u.level ≠ level) : permissiveSatisfied d (levels.set k level) = false := by
  rw [permissiveSatisfied, List.all_eq_false]
  refine ⟨k, List.mem_finRange k, ?_⟩
  simp [hu, Ne.symm hl]

/-- A live level of an arm (R179). -/
def Arm.leveled (k : PermId) (level : Contact) (x : Arm) : Arm := { x with levels := x.levels.set k level }

theorem State.takePermissive_unused {s : State} {a : ArmId} {k : PermId} {level : Contact}
    (h : (s.arm a).levels[k] ≠ level) (hu : ((s.arm a).defn.bind fun d => d.perms[k]) = none) :
    s.takePermissive a k level = s.modArm a (Arm.leveled k level) := by
  simp only [State.takePermissive, if_neg h, hu]
  rfl

theorem State.takePermissive_used {s : State} {a : ArmId} {k : PermId} {level : Contact} {u : PermUse}
    (h : (s.arm a).levels[k] ≠ level) (hu : ((s.arm a).defn.bind fun d => d.perms[k]) = some u) :
    s.takePermissive a k level =
      if u.level = level then (s.modArm a (Arm.leveled k level)).modArm a Arm.derivePermissive
      else (s.modArm a (Arm.leveled k level)).dropPermissive a k u := by
  simp only [State.takePermissive, if_neg h, hu]
  rfl

/-- A drop is latched, makes the permissive not satisfied, and is taken as a cause where the head load is watched. -/
theorem State.takePermissive_drop {s : State} {a : ArmId} {k : PermId} {level : Contact} {u : PermUse}
    (h : (s.arm a).levels[k] ≠ level) (hu : ((s.arm a).defn.bind fun d => d.perms[k]) = some u)
    (hlevel : u.level ≠ level) :
    s.takePermissive a k level =
      if s.headIs a LoadState.permissiveWatched then
        (s.modArm a (Arm.dropped k level)).takeCause a (.cause u.cause) (.input k)
      else s.modArm a (Arm.dropped k level) := by
  obtain ⟨d, hd, hperm⟩ := Option.bind_eq_some_iff.mp hu
  have hdrop : (s.modArm a (Arm.leveled k level)).modArm a
      (fun x => Arm.derivePermissive { x with latched := insertInput k x.latched }) = s.modArm a (Arm.dropped k level) := by
    rw [State.modArm_modArm]
    refine State.modArm_congr ?_
    simp [Arm.derivePermissive, Arm.derivedPermissive, Arm.dropped, Arm.leveled, hd, permissive_of_drop hperm hlevel]
  rw [State.takePermissive_used h hu, if_neg hlevel, State.dropPermissive, hdrop]
  rfl

/-- Settles O43, by the use of the input and the level it takes. -/
theorem permissiveInputsAct : Obligations.PermissiveInputsAct := by
  intro a k level s hp hne leveled used
  refine ⟨fun hu => (event_powered hp).trans (congrArg _ (State.takePermissive_unused hne hu)),
    fun u hu hl => (event_powered hp).trans (congrArg _ ((State.takePermissive_used hne hu).trans (if_pos hl))),
    fun u hu hl hidle => (event_powered hp).trans (congrArg _ ((State.takePermissive_drop hne hu hl).trans
      ((if_neg ?_).trans ?_))), fun u l hu hl hhead hst hw => ⟨fun hsafe hlock hcls => ?_, fun hsafe hesc hcls => ?_⟩⟩
  · rw [Bool.not_eq_true, State.headIs_eq_false]
    intro l hhead
    rcases hidle l hhead with h | h | h <;> rw [h] <;> rfl
  · exact (State.modArm_modArm s a (Arm.leveled k level) fun x =>
      { x with latched := insertInput k x.latched, permissive := some false }).symm
  · have hcause : u.cause = .safetyPermissive := if_pos hsafe
    have htake : s.takePermissive a k level =
        (s.modArm a (Arm.dropped k level)).laneTrip .safetyPermissive (.input k) a := by
      rw [State.takePermissive_drop hne hu hl, if_pos (by rw [State.headIs_of_head hhead, hst]; rfl), hcause,
        State.takeCause_trip (s := s.modArm a (Arm.dropped k level)) _ hcls, State.tripArm_unlocked (by rw [State.modArm_arm_same]; exact hlock)]
    obtain ⟨htripped, harm⟩ := State.laneTrip_trippedBy (s := s.modArm a (Arm.dropped k level)) .safetyPermissive
      (.input k) hhead (by rw [hst]; rfl) (by rw [State.modArm_arm_same]; exact hlock) (.inl hw)
    refine ⟨_, (event_powered hp).trans (congrArg _ htake), htripped, ?_, ?_⟩
    · rw [harm, State.modArm_arm_same]
      rfl
    · rw [harm, State.modArm_arm_same]
      simp [Arm.dropped, Arm.startSettle, Arm.zeroFlow]
  · have hcause : u.cause = .permissive := if_neg (by rw [hsafe]; decide)
    have htake : s.takePermissive a k level =
        (s.modArm a (Arm.dropped k level)).takeCause a (.cause .permissive) (.input k) := by
      rw [State.takePermissive_drop hne hu hl, if_pos (by rw [State.headIs_of_head hhead, hst]; rfl), hcause]
    have hdefn : (s.modArm a (Arm.dropped k level)).defn a = s.defn a := by
      rw [State.defn, State.modArm_arm_same]
      rfl
    obtain ⟨hheld, harm, -⟩ := State.takeCause_heldBy (s := s.modArm a (Arm.dropped k level)) (c := .permissive)
      (.input k) hcls hhead hst (by rwa [hdefn]) hw
    refine ⟨_, (event_powered hp).trans (congrArg _ htake), hheld, ?_, ?_⟩
    · rw [harm, State.modArm_arm_same]
      rfl
    · rw [harm, State.modArm_arm_same]
      simp [Arm.dropped, Arm.zeroFlow]

end Sys2Proof.Machine

end

section
/-! PROOFS. The close of a load's accounts and the timers of a settle (R85, R116, R139, R140, R175, R176), with the
statement about them (O46). -/

namespace Sys2Proof.Machine

/-! ### The net close (R85) -/

theorem Account.netClose_eq (m : Meter) (c : Account) : c.netClose m m.tAvg = closedAccount m c := by
  simp only [Account.netClose, closedAccount, sat, volumeMax, pulseVolume, Int.emod_def]
  congr 1
  · rw [min_comm]
  · congr 1
    ring

/-- The ethanol account after a net close: as it was where the arm has no ethanol meter. -/
def State.closedEth (s : State) (d : ArmDef) (c : Account) : Account :=
  match d.ethMeter with
  | none => c
  | some e => closedAccount (s.meter e) c

theorem State.netCloseLoad_live (s : State) (l : Load) :
    s.netCloseLoad true l =
      { l with
        base := closedAccount (s.meter (s.defn l.arm).baseMeter) l.base
        eth := s.closedEth (s.defn l.arm) l.eth } := by
  have hbase : s.netCloseRole (s.defn l.arm) true .base l =
      { l with base := closedAccount (s.meter (s.defn l.arm).baseMeter) l.base } := by
    rw [← Account.netClose_eq]
    rfl
  have heth : ∀ k : Load, s.netCloseRole (s.defn l.arm) true .ethanol k =
      { k with eth := s.closedEth (s.defn l.arm) k.eth } := by
    intro k
    simp only [State.netCloseRole, ArmDef.meterOf, State.closedEth]
    cases (s.defn l.arm).ethMeter with
    | none => rfl
    | some e =>
      dsimp only
      rw [← Account.netClose_eq]
      rfl
  rw [State.netCloseLoad, hbase, heth]

/-- The strokes due of an entry at a delivered volume (R165). -/
def State.dueAt (s : State) (v : Nat) (e : AddEntry) : AddEntry :=
  { e with due := v * e.dose / ((s.injector e.inj).stroke * 10000) }

theorem State.writeDue_eq (s : State) (v : Nat) (l : Load) : s.writeDue v l = l.withAdds (l.adds.map (s.dueAt v)) := rfl

theorem State.finalLoad_eq (s : State) (l : Load) :
    s.finalLoad l =
      { l with
        base := closedAccount (s.meter (s.defn l.arm).baseMeter) l.base
        eth := s.closedEth (s.defn l.arm) l.eth
        vc := l.v
        adds := l.adds.map (s.dueAt l.v) } := by
  simp only [State.finalLoad, State.netCloseLoad_live, State.writeDue_eq]
  rfl

/-! ### A TRIP on a settling load (R11, R140) -/

/-- The record of a settling load at which a TRIP is taken (R11, R188). -/
def Load.trippedAgain (c : Cause) (det : Detail) (l : Load) : Load :=
  { l.fillStop (.cause c) .trip det with pendingOut := some .tripped }

theorem Load.trippedAgain_keeps (c : Cause) (det : Detail) {l : Load} (hl : l.state ≠ .ended) :
    (l.trippedAgain c det).arm = l.arm ∧ (l.trippedAgain c det).state ≠ .ended := by
  unfold Load.trippedAgain
  rw [Load.fillStop_eq]
  exact ⟨rfl, hl⟩

theorem State.laneTrip_settling {s : State} {a : ArmId} {l : Load} (c : Cause) (det : Detail) (hl : s.head a = some l)
    (hst : l.state = .settling) :
    s.laneTrip c det a = State.lockArm a c det (State.cutStrokes a (s.modHead a (Load.trippedAgain c det))) := by
  have hsome : (s.running a).isSome = true := by
    rw [State.running_of_head hl, hst]
    rfl
  have hkeep : ∀ k : Load, k.state ≠ .ended → (k.fillStop (.cause c) .trip det).arm = k.arm ∧
      (k.fillStop (.cause c) .trip det).state ≠ .ended := fun k hk =>
    ⟨by rw [Load.fillStop_eq], by rwa [(Load.fillStop_stage _ _ _ _).1]⟩
  have hfilled : (s.modHead a (Load.fillStop (.cause c) .trip det)).head a =
      some (l.fillStop (.cause c) .trip det) := by
    rw [State.modHead_head hkeep, if_pos rfl, hl, Option.map_some]
  have hstate : (l.fillStop (.cause c) .trip det).state = .settling := (Load.fillStop_stage _ _ _ _).1.trans hst
  have hrun : (l.fillStop (.cause c) .trip det).state.inProgress = true := by rw [hstate]; rfl
  have hsettling : ((l.fillStop (.cause c) .trip det).state == .settling) = true := by rw [hstate]; rfl
  simp only [State.laneTrip, hsome, if_true, State.actTrip, State.running_of_head hfilled, hrun, hsettling]
  rw [State.modHead_modHead _ hkeep]
  rfl

/-! ### The maximum settle (R140) -/

/-- The maximum settle timer of an arm has stopped. -/
def FlowState.stopMax (f : FlowState) : FlowState := { f with maxTimer := none }

theorem State.expireMaxSettle_none {s : State} {a : ArmId} {l : Load} (hl : s.head a = some l)
    (hst : l.state = .settling) (ht : (s.arm a).flow.maxTimer.isSome = true)
    (hm : (s.arm a).flow.lastSettle = none) : s.expireMaxSettle a = s.modFlow a FlowState.stopMax := by
  simp only [State.expireMaxSettle, State.headIs_of_head hl, hst, ht, hm]
  rfl

theorem State.expireMaxSettle_some {s : State} {a : ArmId} {l : Load} {m : MeterId} (hl : s.head a = some l)
    (hst : l.state = .settling) (ht : (s.arm a).flow.maxTimer.isSome = true)
    (hm : (s.arm a).flow.lastSettle = some m) (hc : (s.arm a).flow.settleComplete = false) :
    s.expireMaxSettle a = (s.modFlow a FlowState.stopMax).takeCause a (.cause .leakBy) (.meter m) := by
  simp only [State.expireMaxSettle, State.headIs_of_head hl, hst, ht, hm, hc]
  rfl

/-- A settling load at which a TRIP is taken at an arm that was not LOCKED. -/
theorem State.laneTrip_settled {s : State} {a : ArmId} {l : Load} (c : Cause) (det : Detail) (hl : s.head a = some l)
    (hst : l.state = .settling) (hlock : (s.arm a).locked = false) :
    (s.laneTrip c det a).head a = some (l.trippedAgain c det) ∧
      (s.laneTrip c det a).arm a =
        { s.arm a with endStage := .tripped, locked := true, lockRecord := some (c, det) } ∧
      (s.laneTrip c det a).lanes = s.lanes ∧
      (s.laneTrip c det a).attention.pending[Source.armLocked.index] = true := by
  rw [State.laneTrip_settling c det hl hst]
  refine ⟨?_, ?_, ?_, State.attend_pending_same _ _⟩
  · rw [State.lockArm, State.attend_head, State.modArm_head, State.cutStrokes_head,
      State.modHead_head fun _ => Load.trippedAgain_keeps c det, if_pos rfl, hl, Option.map_some]
  · rw [State.lockArm, State.attend_arm, State.modArm_arm_same, State.cutStrokes_arm, if_pos rfl, State.modHead_arm,
      if_neg (by rw [Arm.tripStage, hlock]; decide)]
    rfl
  · rw [State.lockArm, State.attend_lanes, State.modArm_lanes, State.cutStrokes_rest]
    rfl

/-! ### The settle expiry (R116, R139, R175, R176) -/

/-- The timers of a settle that is complete (R139). -/
def FlowState.settled (f : FlowState) : FlowState :=
  { f with settleTimer := none, maxTimer := none, settleComplete := true }

/-- An arm whose end catch-up has begun (R175). -/
def Arm.catchUp (x : Arm) : Arm := { x with endStage := .catchingUp }

/-- Whether the end catch-up fires a stroke of an entry (R167, R173, R175). -/
def State.catchesUp (s : State) (a : ArmId) (e : AddEntry) : Bool :=
  !noStroke s a && (s.arm a).endStage == .awaitingFinal && (s.injector e.inj).state == .idle &&
    decide ((s.injector e.inj).catchUp < (s.defn a).catchUp) && decide (e.consec < 3) && decide (e.proven < e.due)

/-- What the beginning of the end catch-up leaves. -/
structure CaughtUp (a : ArmId) (l : Load) (s t : State) : Prop where
  head  : t.head a = some (l.withAdds (l.adds.map fun e => e.counted (s.catchesUp a e)))
  arm   : t.arm a = { s.arm a with
            endStage := if (s.arm a).endStage = .awaitingFinal then .catchingUp else .tripped }
  fired : ∀ e ∈ l.adds, t.injector e.inj =
            if s.catchesUp a e then (s.injector e.inj).fire l else s.injector e.inj
  other : ∀ j, (∀ e ∈ l.adds, e.inj ≠ j) → t.injector j = s.injector j
  rest  : t = { s with arms := t.arms, loads := t.loads, injectors := t.injectors }

theorem State.beginCatchUp_caughtUp {s : State} {a : ArmId} {l : Load} (hl : s.head a = some l)
    (hst : l.state = .settling) (hn : (l.adds.map (·.inj)).Nodup)
    (hstage : (s.arm a).endStage = .awaitingFinal ∨ (s.arm a).endStage = .tripped) :
    CaughtUp a l s (s.beginCatchUp a) := by
  have hrun : l.state.inProgress = true := by rw [hst]; rfl
  rcases hstage with hstage | hstage
  · have hbegin : s.beginCatchUp a = State.testAllFiring a (s.modArm a Arm.catchUp) := by
      unfold State.beginCatchUp
      rw [hstage]
      rfl
    have htest := State.testAllFiring_tested (s := s.modArm a Arm.catchUp) hl hrun hn
    have hfires : ∀ e, (s.modArm a Arm.catchUp).mayFire a l e = s.catchesUp a e := by
      intro e
      have hbar : (s.modArm a Arm.catchUp).strokesBarred a = noStroke s a := by
        simp [State.strokesBarred, State.armLaneShut, noStroke, State.laneOf, State.modArm_arm_same, Arm.catchUp]
      have hdefn : (s.modArm a Arm.catchUp).defn a = s.defn a := by
        rw [State.defn, State.modArm_arm_same]
        rfl
      simp only [State.mayFire, hbar, hdefn, State.modArm_arm_same, firingTest, State.catchesUp, hst, hstage, Arm.catchUp,
        State.modArm_injector]
      simp [LoadState.delivers, Bool.and_assoc]
    rw [hbegin]
    have hhead := htest.head hl
    have hfired := htest.fired
    simp only [hfires, List.append_nil] at hhead hfired
    refine ⟨hhead, ?_, hfired, htest.other, ?_⟩
    · rw [State.testAllFiring_arm, State.modArm_arm_same, if_pos hstage]
      rfl
    · rw [htest.only]
      rfl
  · have hbegin : s.beginCatchUp a = s := by
      unfold State.beginCatchUp
      rw [hstage]
      rfl
    have hno : ∀ e, s.catchesUp a e = false := fun e => by simp [State.catchesUp, hstage]
    rw [hbegin]
    refine ⟨?_, ?_, fun e _ => by rw [hno, if_neg Bool.false_ne_true], fun _ _ => rfl, rfl⟩
    · rw [hl]
      simp [hno, AddEntry.counted, Load.withAdds]
    · rw [hstage, if_neg (by decide), ← hstage]

/-- An overrun taken as NOTE, or none (R139). -/
theorem State.noteOverrun {s : State} {a : ArmId} {l : Load} (surplus : Nat) (det : Detail) (hl : s.head a = some l)
    (hst : l.state = .settling) (hcls : s.causes[Cause.overrun.index] = .note) :
    let t := if 0 < surplus then s.takeCause a (.cause .overrun) det else s
    (∃ ns, t.head a = some { l with notices := ns } ∧ (0 < surplus → .overrun ∈ ns)) ∧
      t = { s with loads := t.loads, attention := t.attention } := by
  dsimp only
  split
  · have htake := State.takeCause_note det hcls hl (by rw [hst]; rfl)
    simp only [Load.keepDetail_other (c := .overrun) rfl] at htake
    rw [htake]
    refine ⟨⟨insertCause .overrun l.notices, ?_, fun _ => by simp⟩, rfl⟩
    rw [State.attend_head, State.modHead_head (f := fun k => { k with notices := insertCause .overrun k.notices })
      (fun _ h => ⟨rfl, h⟩), if_pos rfl, hl, Option.map_some]
  · exact ⟨⟨l.notices, hl, fun h => absurd h ‹_›⟩, rfl⟩

/-- The overrun of a settle is written (R139). -/
def FlowState.overran (n : Nat) (f : FlowState) : FlowState := { f with overrun := n }

/-- The state of a settle whose accounts have been closed and whose strokes are still to be tested (R116). -/
def State.finalEntered (a : ArmId) (s : State) : State :=
  (s.modFlow a FlowState.settled).modHead a (s.modFlow a FlowState.settled).finalLoad

section
variable {s : State} {a : ArmId} {l : Load}

theorem State.finalEntered_head (hl : s.head a = some l) : (s.finalEntered a).head a = some (s.finalLoad l) := by
  have hload : (s.modFlow a FlowState.settled).finalLoad l = s.finalLoad l := by
    rw [State.finalLoad_eq, State.finalLoad_eq, State.modFlow_defn]
    rfl
  have hkeep : ∀ k : Load, k.state ≠ .ended → ((s.modFlow a FlowState.settled).finalLoad k).arm = k.arm ∧
      ((s.modFlow a FlowState.settled).finalLoad k).state ≠ .ended := fun k hk =>
    ⟨(State.finalLoad_kept _ hk).arm, by rwa [(State.finalLoad_stage _ _).1]⟩
  rw [State.finalEntered, State.modHead_head hkeep, if_pos rfl, State.modFlow_head, hl, Option.map_some, hload]

theorem State.finalEntered_arm : (s.finalEntered a).arm a = { s.arm a with flow := (s.arm a).flow.settled } := by
  rw [State.finalEntered, State.modHead_arm, State.modFlow_arm, if_pos rfl]

theorem State.expireSettle_of (hl : s.head a = some l) (hst : l.state = .settling)
    (ht : (s.arm a).flow.settleTimer.isSome = true) {k : Load}
    (hk : (State.testReadiness a ((s.finalEntered a).beginCatchUp a)).head a = some k) :
    s.expireSettle a =
      let t := (State.testReadiness a ((s.finalEntered a).beginCatchUp a)).modFlow a
        (FlowState.overran (k.v - k.preset * 1000))
      State.tryEnd a (if 0 < k.v - k.preset * 1000 then
        t.takeCause a (.cause .overrun) (.litres ((k.v - k.preset * 1000) / 1000)) else t) := by
  have hfinal : State.finalClose a (s.modFlow a FlowState.settled) =
      State.testReadiness a ((s.finalEntered a).beginCatchUp a) := rfl
  rw [← hfinal] at hk ⊢
  have hsettle : s.expireSettle a = s.completeSettle a := by
    rw [State.expireSettle, State.headIs_of_head hl, hst, ht]
    rfl
  rw [hsettle]
  simp only [State.completeSettle]
  rw [show (s.modFlow a fun f => { f with settleTimer := none, maxTimer := none, settleComplete := true }) =
    s.modFlow a FlowState.settled from rfl, hk]
  rfl

theorem State.finalEntered_catchesUp (e : AddEntry) : (s.finalEntered a).catchesUp a e = s.catchesUp a e := by
  have harm := State.finalEntered_arm (s := s) (a := a)
  have hbar : noStroke (s.finalEntered a) a = noStroke s a := by
    simp only [noStroke, State.laneOf, harm]
    rfl
  have hdefn : (s.finalEntered a).defn a = s.defn a := by
    rw [State.defn, harm]
    rfl
  simp only [State.catchesUp, hbar, hdefn, harm]
  rfl

/-- The record of a settle whose final close is made and whose catch-up has begun (R116, R165, R175). -/
def State.finalCounted (s : State) (a : ArmId) (l : Load) : Load :=
  (s.finalLoad l).withAdds (l.adds.map fun e => (s.dueAt l.v e).counted (s.catchesUp a (s.dueAt l.v e)))

theorem State.finalEntered_caughtUp (hl : s.head a = some l) (hst : l.state = .settling)
    (hn : (l.adds.map (·.inj)).Nodup)
    (hstage : (s.arm a).endStage = .awaitingFinal ∨ (s.arm a).endStage = .tripped) :
    CaughtUp a (s.finalLoad l) (s.finalEntered a) ((s.finalEntered a).beginCatchUp a) ∧
      ((s.finalEntered a).beginCatchUp a).head a = some (s.finalCounted a l) := by
  have hadds : (s.finalLoad l).adds = l.adds.map (s.dueAt l.v) := by rw [State.finalLoad_eq]
  have hcaught := State.beginCatchUp_caughtUp (State.finalEntered_head hl) ((s.finalLoad_stage l).1.trans hst)
    (by rw [hadds, List.map_map]; exact hn) (by rw [State.finalEntered_arm]; exact hstage)
  refine ⟨hcaught, hcaught.head.trans ?_⟩
  rw [hadds, List.map_map]
  simp only [State.finalEntered_catchesUp]
  rfl

theorem State.finalCounted_eq (s : State) (a : ArmId) (l : Load) :
    s.finalCounted a l =
      { l with
        base := closedAccount (s.meter (s.defn l.arm).baseMeter) l.base
        eth := s.closedEth (s.defn l.arm) l.eth
        vc := l.v
        adds := l.adds.map fun e => (s.dueAt l.v e).counted (s.catchesUp a (s.dueAt l.v e)) } := by
  rw [State.finalCounted, State.finalLoad_eq]
  rfl

theorem State.finalCounted_v (s : State) (a : ArmId) (l : Load) : (s.finalCounted a l).v = l.v := by
  rw [State.finalCounted_eq]

theorem State.finalCounted_preset (s : State) (a : ArmId) (l : Load) : (s.finalCounted a l).preset = l.preset := by
  rw [State.finalCounted_eq]

theorem State.finalCounted_state (s : State) (a : ArmId) (l : Load) : (s.finalCounted a l).state = l.state := by
  rw [State.finalCounted_eq]

/-- What the settle expiry leaves while a channel of the load is busy. -/
theorem State.expireSettle_busy (hl : s.head a = some l) (hst : l.state = .settling)
    (ht : (s.arm a).flow.settleTimer.isSome = true) (hn : (l.adds.map (·.inj)).Nodup)
    (hstage : (s.arm a).endStage = .awaitingFinal ∨ (s.arm a).endStage = .tripped)
    (hcls : s.causes[Cause.overrun.index] = .note) (hrep : (s.arm a).endReported = false)
    (hbusy : ∃ e ∈ l.adds, (s.injector e.inj).state ≠ .idle ∨ s.catchesUp a (s.dueAt l.v e) = true) :
    (∃ ns, (s.expireSettle a).head a = some { s.finalCounted a l with notices := ns } ∧
      (0 < l.v - l.preset * 1000 → .overrun ∈ ns)) ∧
    (s.expireSettle a).arm a =
      { s.arm a with
        flow := (s.arm a).flow.settled.overran (l.v - l.preset * 1000)
        endStage := if (s.arm a).endStage = .awaitingFinal then .catchingUp else .tripped } ∧
    (∀ e ∈ l.adds, (s.expireSettle a).injector e.inj =
      if s.catchesUp a (s.dueAt l.v e) then (s.injector e.inj).fire (s.finalLoad l) else s.injector e.inj) ∧
    ∀ j, (∀ e ∈ l.adds, e.inj ≠ j) → (s.expireSettle a).injector j = s.injector j := by
  have hadds : (s.finalLoad l).adds = l.adds.map (s.dueAt l.v) := by rw [State.finalLoad_eq]
  obtain ⟨hcaught, hhead⟩ := State.finalEntered_caughtUp hl hst hn hstage
  have harm := hcaught.arm
  rw [State.finalEntered_arm] at harm
  have hfired : ∀ e ∈ l.adds, ((s.finalEntered a).beginCatchUp a).injector e.inj =
      if s.catchesUp a (s.dueAt l.v e) then (s.injector e.inj).fire (s.finalLoad l) else s.injector e.inj := by
    intro e he
    have := hcaught.fired (s.dueAt l.v e) (hadds ▸ List.mem_map_of_mem he)
    rw [State.finalEntered_catchesUp] at this
    exact this
  have hother : ∀ j, (∀ e ∈ l.adds, e.inj ≠ j) → ((s.finalEntered a).beginCatchUp a).injector j = s.injector j := by
    intro j hj
    refine hcaught.other j fun e he => ?_
    rw [hadds] at he
    obtain ⟨x, hx, rfl⟩ := List.mem_map.mp he
    exact hj x hx
  have hquiet : ((s.finalEntered a).beginCatchUp a).channelsQuiet a (s.finalCounted a l) = false := by
    obtain ⟨e, he, hb⟩ := hbusy
    refine State.channelsQuiet_false (e := (s.dueAt l.v e).counted (s.catchesUp a (s.dueAt l.v e)))
      (List.mem_map_of_mem he) (.inl ?_)
    change (((s.finalEntered a).beginCatchUp a).injector e.inj).state ≠ .idle
    rw [hfired e he]
    split
    · exact fun h => by cases h
    · exact hb.resolve_right ‹_›
  have hcls' : ((s.finalEntered a).beginCatchUp a).causes[Cause.overrun.index] = .note := by
    rw [(State.beginCatchUp_kept a _).causes]
    exact hcls
  obtain ⟨hready, -⟩ := State.tryEnd_of_busy hhead (by rw [harm]; exact hrep) hquiet
  have hexp := State.expireSettle_of hl hst ht (hready.symm ▸ hhead)
  rw [hready, State.finalCounted_v, State.finalCounted_preset] at hexp
  obtain ⟨⟨ns, hns, hover⟩, hrest⟩ := State.noteOverrun
    (s := ((s.finalEntered a).beginCatchUp a).modFlow a (FlowState.overran (l.v - l.preset * 1000)))
    (l.v - l.preset * 1000) (.litres ((l.v - l.preset * 1000) / 1000)) hhead
    ((State.finalCounted_state s a l).trans hst) hcls'
  dsimp only at hexp
  generalize (if 0 < l.v - l.preset * 1000 then
    State.takeCause a (.cause .overrun) (.litres ((l.v - l.preset * 1000) / 1000))
      (((s.finalEntered a).beginCatchUp a).modFlow a (FlowState.overran (l.v - l.preset * 1000)))
    else ((s.finalEntered a).beginCatchUp a).modFlow a (FlowState.overran (l.v - l.preset * 1000))) = t at *
  have hta : t.arm a = { s.arm a with
      flow := (s.arm a).flow.settled.overran (l.v - l.preset * 1000)
      endStage := if (s.arm a).endStage = .awaitingFinal then .catchingUp else .tripped } := by
    have : t.arm a = (((s.finalEntered a).beginCatchUp a).modFlow a
        (FlowState.overran (l.v - l.preset * 1000))).arm a := by
      rw [hrest]
      rfl
    rw [this, State.modFlow_arm, if_pos rfl, harm]
  have hti : ∀ j, t.injector j = ((s.finalEntered a).beginCatchUp a).injector j := fun j => by
    rw [hrest]
    rfl
  rw [hexp, State.tryEnd_of_not (by rw [State.endDue, hta]; simp [hrep])]
  exact ⟨⟨ns, hns, hover⟩, hta, fun e he => (hti _).trans (hfired e he), fun j hj => (hti j).trans (hother j hj)⟩

/-- What the settle expiry leaves with every channel of the load quiet: the load has entered ENDED. -/
theorem State.expireSettle_quiet (hl : s.head a = some l) (hst : l.state = .settling)
    (ht : (s.arm a).flow.settleTimer.isSome = true) (hn : (l.adds.map (·.inj)).Nodup)
    (hstage : (s.arm a).endStage = .awaitingFinal ∨ (s.arm a).endStage = .tripped)
    (hcls : s.causes[Cause.overrun.index] = .note) (hrep : (s.arm a).endReported = false)
    (hquiet : ∀ e ∈ l.adds, (s.injector e.inj).state = .idle ∧ s.catchesUp a (s.dueAt l.v e) = false) :
    ∃ ns : List Cause, (0 < l.v - l.preset * 1000 → .overrun ∈ ns) ∧
      s.concludeLoad l.settledOutcome (l.v - l.preset * 1000) { s.finalCounted a l with notices := ns } ∈
        (s.expireSettle a).loads ∧
      (s.expireSettle a).injectors = s.injectors ∧
      (s.expireSettle a).attention.pending[Source.loadEnded.index] = true ∧
      (s.expireSettle a).arm a =
        { s.arm a with
          flow := (s.arm a).flow.settled.overran (l.v - l.preset * 1000), endStage := .none, endReported := false } := by
  obtain ⟨hcaught, hhead⟩ := State.finalEntered_caughtUp hl hst hn hstage
  have harm := hcaught.arm
  rw [State.finalEntered_arm] at harm
  have hadds : (s.finalLoad l).adds = l.adds.map (s.dueAt l.v) := by rw [State.finalLoad_eq]
  have hinj : ∀ j, ((s.finalEntered a).beginCatchUp a).injector j = s.injector j := by
    intro j
    by_cases hj : ∀ e ∈ l.adds, e.inj ≠ j
    · refine hcaught.other j fun e he => ?_
      rw [hadds] at he
      obtain ⟨x, hx, rfl⟩ := List.mem_map.mp he
      exact hj x hx
    · push Not at hj
      obtain ⟨e, he, rfl⟩ := hj
      have := hcaught.fired (s.dueAt l.v e) (hadds ▸ List.mem_map_of_mem he)
      rw [State.finalEntered_catchesUp, (hquiet e he).2, if_neg Bool.false_ne_true] at this
      exact this
  have hlanes : ((s.finalEntered a).beginCatchUp a).lanes = s.lanes := by
    rw [hcaught.rest]
    rfl
  have hquiet' : ((s.finalEntered a).beginCatchUp a).channelsQuiet a (s.finalCounted a l) = true := by
    refine State.channelsQuiet_true fun e he => ?_
    obtain ⟨x, hx, rfl⟩ := List.mem_map.mp he
    obtain ⟨hidle, hno⟩ := hquiet x hx
    have hidle' : (((s.finalEntered a).beginCatchUp a).injector
        ((s.dueAt l.v x).counted (s.catchesUp a (s.dueAt l.v x))).inj).state = .idle := by
      rw [hinj]
      exact hidle
    refine ⟨hidle', ?_⟩
    rw [Bool.eq_false_iff]
    intro hmay
    obtain ⟨hbar, hd, hcon, hdue⟩ := (State.mayFire_iff hidle').mp hmay
    have hbar' : noStroke s a = false := by
      rw [← hbar]
      simp only [State.strokesBarred, State.armLaneShut, noStroke, State.laneOf, State.lane, harm, hlanes]
    have hdefn : ((s.finalEntered a).beginCatchUp a).defn a = s.defn a := by
      rw [State.defn, harm]
      rfl
    obtain ⟨-, hcatching, hcount⟩ := hd.resolve_left (by rw [State.finalCounted_state, hst]; decide)
    rw [hinj, hdefn] at hcount
    have hawait : (s.arm a).endStage = .awaitingFinal := by
      rw [harm] at hcatching
      by_contra hne
      dsimp only at hcatching
      rw [if_neg hne] at hcatching
      cases hcatching
    have hyes : s.catchesUp a (s.dueAt l.v x) = true := by
      have hidle0 : (s.injector (s.dueAt l.v x).inj).state = .idle := hidle
      simp only [State.catchesUp, hbar', hawait, hidle0, Bool.and_eq_true, decide_eq_true_eq]
      exact ⟨⟨⟨⟨⟨rfl, rfl⟩, rfl⟩, hcount⟩, hcon⟩, hdue⟩
    rw [hyes] at hno
    cases hno
  have hready := State.testReadiness_of_quiet hhead ((State.finalCounted_state s a l).trans hst)
    (by rw [harm]; rfl) (by rw [harm]; exact hrep) hquiet'
  have hhead' : (State.testReadiness a ((s.finalEntered a).beginCatchUp a)).head a = some (s.finalCounted a l) := by
    rw [hready]
    exact hhead
  have hexp := State.expireSettle_of hl hst ht hhead'
  rw [hready, State.finalCounted_v, State.finalCounted_preset] at hexp
  have hcls' : ((s.finalEntered a).beginCatchUp a).causes[Cause.overrun.index] = .note := by
    rw [(State.beginCatchUp_kept a _).causes]
    exact hcls
  obtain ⟨⟨ns, hns, hover⟩, hrest⟩ := State.noteOverrun
    (s := (((s.finalEntered a).beginCatchUp a).modArm a Arm.reportEnd).modFlow a
      (FlowState.overran (l.v - l.preset * 1000)))
    (l.v - l.preset * 1000) (.litres ((l.v - l.preset * 1000) / 1000)) hhead
    ((State.finalCounted_state s a l).trans hst) hcls'
  dsimp only at hexp
  generalize (if 0 < l.v - l.preset * 1000 then
    State.takeCause a (.cause .overrun) (.litres ((l.v - l.preset * 1000) / 1000))
      ((((s.finalEntered a).beginCatchUp a).modArm a Arm.reportEnd).modFlow a
        (FlowState.overran (l.v - l.preset * 1000)))
    else (((s.finalEntered a).beginCatchUp a).modArm a Arm.reportEnd).modFlow a
      (FlowState.overran (l.v - l.preset * 1000))) = t at *
  have hta : t.arm a = { (((s.finalEntered a).beginCatchUp a).arm a).reportEnd with
      flow := (s.arm a).flow.settled.overran (l.v - l.preset * 1000) } := by
    have : t.arm a = ((((s.finalEntered a).beginCatchUp a).modArm a Arm.reportEnd).modFlow a
        (FlowState.overran (l.v - l.preset * 1000))).arm a := by
      rw [hrest]
      rfl
    rw [this, State.modFlow_arm, if_pos rfl, State.modArm_arm_same, harm]
    rfl
  have hti : t.injectors = s.injectors := by
    have hv : ((s.finalEntered a).beginCatchUp a).injectors = s.injectors := Vector.ext fun i hi => hinj ⟨i, hi⟩
    rw [hrest]
    exact hv
  have hconc : t.concludeLoad = s.concludeLoad := by
    have hrecipes : t.recipes = s.recipes := by
      rw [hrest]
      change ((s.finalEntered a).beginCatchUp a).recipes = s.recipes
      rw [hcaught.rest]
      rfl
    have hmetrology : t.metrology = s.metrology := by
      rw [hrest]
      change ((s.finalEntered a).beginCatchUp a).metrology = s.metrology
      rw [hcaught.rest]
      rfl
    funext o n k
    simp only [State.concludeLoad, State.recipeOf, State.recipe, State.injector, hrecipes, hmetrology, hti]
  have hend := State.tryEnd_of_due hns ((State.finalCounted_state s a l).trans hst) (by rw [hta]; rfl)
    (by rw [hta]; rfl)
  obtain ⟨hrec, hinjs, hflag, harmt⟩ := State.enterEnded_concluded hns
  rw [hexp, hend]
  refine ⟨ns, hover, ?_, hinjs.trans hti, hflag, ?_⟩
  · rw [hconc, hta] at hrec
    have hpending : ({ s.finalCounted a l with notices := ns } : Load).settledOutcome = l.settledOutcome := by
      rw [State.finalCounted_eq]
      rfl
    rw [hpending] at hrec
    exact hrec
  · rw [harmt, hta, harm]
    rfl

end

theorem preset_lt_of_surplus {l : Load} (h : l.preset * 1000 < l.v) : 0 < l.v - l.preset * 1000 := by omega

/-- Settles O46: the settle expiry by whether a channel of the load is busy, the maximum settle by whether a pulse
came. -/
theorem settleTimersExpire : Obligations.SettleTimersExpire := by
  intro a l s hp hl hst
  obtain ⟨-, harm, -⟩ := State.head_some hl
  refine ⟨fun ht hn hcls hrep hstage => ?_, fun ht hm => ?_, fun m ht hm hc hlock hcls => ?_⟩
  · intro due fires counted closed
    have hclosed : ∀ {ns : List Cause} {m : Load}, (0 < l.v - l.preset * 1000 → .overrun ∈ ns) →
        m = { m with number := l.number, v := l.v, vc := l.v, notices := ns
                     base := closedAccount (s.meter (s.defn l.arm).baseMeter) l.base
                     eth := s.closedEth (s.defn l.arm) l.eth } → closed m := by
      intro ns m hover hm
      rw [harm] at hm
      rw [hm]
      refine ⟨rfl, rfl, rfl, rfl, ?_, fun h => hover (preset_lt_of_surplus h)⟩
      unfold State.closedEth
      cases (s.defn a).ethMeter <;> rfl
    refine ⟨fun hquiet => ?_, fun hbusy => ?_⟩
    · obtain ⟨ns, hover, hrec, hinj, hflag, harm'⟩ := State.expireSettle_quiet hl hst ht hn hstage hcls hrep hquiet
      refine ⟨_, _, event_powered hp, hrec, hclosed hover ?_, rfl, rfl, rfl, ?_, rfl, rfl, hinj, hflag, ?_⟩
      · rw [State.finalCounted_eq]
        rfl
      · rw [State.finalCounted_eq]
        simp only [State.concludeLoad, List.map_map]
        rfl
      · rw [harm']
        exact ⟨rfl, rfl, rfl⟩
    · obtain ⟨⟨ns, hhead, hover⟩, harm', hfired, hother⟩ :=
        State.expireSettle_busy hl hst ht hn hstage hcls hrep hbusy
      refine ⟨_, _, event_powered hp, hhead, hclosed hover ?_, ?_, ?_, ?_, ?_⟩
      · rw [State.finalCounted_eq]
      · rw [State.finalCounted_eq]
        exact hst
      · rw [State.finalCounted_eq]
      · rw [State.finalCounted_eq]
        rfl
      · dsimp only
        rw [harm']
        refine ⟨rfl, rfl, rfl, rfl, hrep, rfl, fun e he => (hfired e he).trans ?_, hother⟩
        have hfl : (s.finalLoad l).number = l.number ∧ (s.finalLoad l).state = .settling := by
          rw [State.finalLoad_eq]
          exact ⟨rfl, hst⟩
        simp only [Injector.fire, hfl]
        rfl
  · exact (event_powered hp).trans (congrArg _ (State.expireMaxSettle_none hl hst ht hm))
  · have harms : (s.modFlow a FlowState.stopMax).arm a = { s.arm a with flow := (s.arm a).flow.stopMax } := by
      rw [State.modFlow_arm, if_pos rfl]
    have hlock' : ((s.modFlow a FlowState.stopMax).arm a).locked = false := by
      rw [harms]
      exact hlock
    obtain ⟨hhead, harm', hlanes, hflag⟩ := State.laneTrip_settled (s := s.modFlow a FlowState.stopMax) .leakBy (.meter m)
      hl hst hlock'
    have htake : s.expireMaxSettle a = (s.modFlow a FlowState.stopMax).laneTrip .leakBy (.meter m) a := by
      rw [State.expireMaxSettle_some hl hst ht hm hc, State.takeCause_trip (s := s.modFlow a FlowState.stopMax) _ hcls,
        State.tripArm_unlocked hlock']
    refine ⟨_, _, (event_powered hp).trans (congrArg _ htake), hhead, ?_, rfl, ?_, ?_⟩
    · exact (Load.fillStop_stage _ _ _ _).1.trans hst
    · rw [Load.trippedAgain, Load.fillStop_eq]
    · rw [harm', harms]
      exact ⟨rfl, rfl, rfl, rfl, hlanes, hflag⟩

end Sys2Proof.Machine

end

section
/-! PROOFS. A load that is started or resumed joins the admission queue or begins its flow (R5, R24, R154, R191), with the
statements about it (O18, O19). -/

namespace Sys2Proof.Machine

/-! ### The head load that enters FLOWING (R7, R107, R124) -/

theorem State.snapDemand_loads (a : ArmId) (s : State) : (s.snapDemand a).loads = s.loads := by
  unfold State.snapDemand
  split
  · rfl
  · split <;> rfl

/-- An evaluation of the profile writes the step reached. -/
theorem State.evalProfile_head {s : State} {a : ArmId} {l : Load} (hl : s.head a = some l) :
    ∃ n, (s.evalProfile a).head a = some { l with step := n } := by
  unfold State.evalProfile
  rw [hl]
  dsimp only
  obtain ⟨limit, rate, n, taken⟩ := takeSteps l.preset l.v ((s.recipeOf l).profile.drop (l.step - 1))
    ((s.arm a).flow.limit, (s.arm a).flow.rate, l.step, false)
  dsimp only
  split
  · refine ⟨n, (State.head_congr (State.snapDemand_loads a _) a).trans ((State.modFlow_head _ _ _ _).trans ?_)⟩
    rw [State.modHead_head (f := fun l => { l with step := n }) (fun _ h => ⟨rfl, h⟩), if_pos rfl, hl,
      Option.map_some]
  · exact ⟨l.step, hl⟩

theorem State.flowEntered_head {s : State} {a : ArmId} {l : Load} (phase : Phase) (hl : s.head a = some l) :
    ∃ n, (s.flowEntered a phase).head a =
      some { l.enterFlow (!(s.arm a).flow.started) phase (s.defn a).sMax (s.recipeOf l).h with step := n } := by
  have hhead := State.enterFlow_head (s := s) (a := a) (!(s.arm a).flow.started) phase (s.defn a).sMax
    (fun l => (s.recipeOf l).h) a
  rw [if_pos rfl, hl, Option.map_some] at hhead
  unfold State.flowEntered
  dsimp only
  split
  · exact ⟨_, hhead⟩
  · exact State.evalProfile_head (l := l.enterFlow (!(s.arm a).flow.started) phase (s.defn a).sMax (s.recipeOf l).h)
      ((State.modFlow_head _ _ _ _).trans hhead)

/-- The record that enters FLOWING, with its step and its strokes. -/
theorem State.enterFlowing_head {s : State} {a : ArmId} {l : Load} (phase : Phase) (hl : s.head a = some l) :
    ∃ n adds, (s.enterFlowing a phase).head a = some
      { l.enterFlow (!(s.arm a).flow.started) phase (s.defn a).sMax (s.recipeOf l).h with
        step := n, adds := adds } := by
  obtain ⟨n, hn⟩ := State.flowEntered_head phase hl
  obtain ⟨adds, ha⟩ := State.testAllFiring_head
    ((State.head_congr (State.formSplit_loads a (s.flowEntered a phase)) a).trans hn)
  exact ⟨n, adds, by rw [State.enterFlowing_eq, ha]⟩

/-! ### What an arm reaches that begins its flow or joins the queue -/

/-- What an arm leaves that moves its load on into the header: its own arm but for the flow, its own head load but for the
entry to FLOWING, and everything outside the header. -/
structure Moving (a : ArmId) (l : Load) (s t : State) : Prop where
  arm   : (t.arm a).still = (s.arm a).still
  head  : ∃ m, t.head a = some m ∧ Moved (s.strokesBarred a) l m
  apart : Apart a (s.member a) s t

theorem Frame.toMoving {s t : State} {a : ArmId} {l : Load}
    (h : Frame (fun b => b = a ∨ s.waiting a b) (fun b => b = a ∨ s.member a b) s t) (hl : s.head a = some l) :
    Moving a l s t :=
  ⟨h.arms a, h.heads a l hl, h.toApart (fun _ hb => hb.imp id State.member_of_waiting) fun _ => id⟩

theorem State.member_or (s : State) (a : ArmId) :
    Within (fun b => b = a ∨ s.waiting a b) (fun b => b = a ∨ s.member a b) s := by
  refine ⟨fun b hb => ?_, fun b hb => ?_⟩ <;> by_cases e : b = a
  · exact .inl e
  · exact .inr ⟨e, hb⟩
  · exact .inl e
  · exact .inr ⟨e, .inr hb⟩

theorem State.joinQueue_moving {s : State} {a : ArmId} {l : Load} (hl : s.head a = some l) :
    Moving a l s (s.joinQueue a) :=
  (State.joinQueue_frame (fun _ hb => hb.imp id State.member_of_waiting) (s.member_or a) (.inl rfl)).toMoving hl

theorem State.enterFlowing_moving {s : State} {a : ArmId} {l : Load} {phase : Phase} (hl : s.head a = some l)
    (hphase : phase = .body ∨ l.phase = phase) : Moving a l s (s.enterFlowing a phase) := by
  refine (State.enterFlowing_frame (.inl rfl) (.inl rfl) (hphase.imp id fun h k hk => ?_)
    (s.member_or a).parts).toMoving hl
  rw [hl] at hk
  cases hk
  exact h

/-- Behind arms that wait, an arm waits with them (R154, R156). -/
theorem State.joinQueue_of_waiting {s : State} (a : ArmId) (h : s.header.queue ≠ []) :
    s.joinQueue a = State.attend .admissionWait (s.modHeader fun h => { h with queue := h.queue ++ [a] }) := by
  have he : s.header.queue.isEmpty = false := by simpa using h
  simp [State.joinQueue, he]

/-! ### The resume (R191) -/

theorem State.resumed_apart {M : ArmId → Prop} (a : ArmId) (l : Load) (s : State) : Apart a M s (s.resumed a l) :=
  (State.modHead_apart (f := Load.resume (s.defn a).rstVol) fun _ h => ⟨rfl, h⟩).trans (State.modFlow_apart _)

theorem State.resumed_recipeOf (a : ArmId) (k : Load) (n : Nat) (s : State) (l : Load) :
    (s.resumed a k).recipeOf (l.resume n) = s.recipeOf l := rfl

/-- What holds where a resume has moved the load on. -/
structure Resumes (a : ArmId) (l : Load) (s t : State) : Prop where
  arm   : (t.arm a).flow.resumeVol = l.v
  apart : Apart a (s.member a) s t
  head  : ∃ m, t.head a = some m ∧ m.still = (l.resume (s.defn a).rstVol).still ∧ m.phase = l.phase ∧
            ((l.phase = .flush ∨ (s.recipeOf l).r = 0) → m.state = .flowing) ∧
            (l.phase = .body → 0 < (s.recipeOf l).r → s.header.queue ≠ [] →
              m.state = .admitting ∧ m.admitFrom = some .resume ∧ t.header.queue = s.header.queue ++ [a] ∧
                t.attention.pending[Source.admissionWait.index] = true)

/-- The records of a load without its strokes tell its entries' consecutive misses. -/
theorem Load.consec_of_still {m l : Load} (h : m.still = l.still) (hl : ∀ e ∈ l.adds, e.consec = 0) :
    ∀ e ∈ m.adds, e.consec = 0 := by
  intro e he
  have hmap : (m.adds.map fun e => { e with fired := 0 }) = l.adds.map fun e => { e with fired := 0 } :=
    (congrArg Load.adds h :)
  have hmem := hmap ▸ List.mem_map_of_mem (f := fun e : AddEntry => { e with fired := 0 }) he
  obtain ⟨x, hx, hxe⟩ := List.mem_map.mp hmem
  exact (congrArg AddEntry.consec hxe).symm.trans (hl x hx)

theorem State.takeResume_resumes {s : State} {a : ArmId} {l : Load} (hl : s.head a = some l) :
    Resumes a l s (s.takeResume a l) := by
  have hhead := State.resumed_head (k := l) hl
  have hvol : ((s.resumed a l).arm a).flow.resumeVol = l.v := by
    rw [State.resumed, State.modFlow_arm, if_pos rfl]
  rw [State.takeResume_eq]
  split
  · rename_i hjoin
    simp only [Bool.and_eq_true, beq_iff_eq, decide_eq_true_eq] at hjoin
    obtain ⟨hbody, hr⟩ := hjoin
    have hadmit : ((s.resumed a l).modHead a (Load.enterAdmitting .resume)).head a =
        some ((l.resume (s.defn a).rstVol).enterAdmitting .resume) := by
      rw [State.modHead_head (f := Load.enterAdmitting .resume) (fun _ _ => ⟨rfl, nofun⟩),
        if_pos rfl, hhead, Option.map_some]
    obtain ⟨harm, ⟨m, hm, hmoved⟩, hapart⟩ := State.joinQueue_moving hadmit
    refine ⟨(congrArg (fun x => x.flow.resumeVol) harm).trans hvol, ?_, m, hm, hmoved.still, ?_, ?_, ?_⟩
    · exact ((State.resumed_apart a l s).trans (State.modHead_apart (f := Load.enterAdmitting .resume)
        fun _ _ => ⟨rfl, by simp [Load.enterAdmitting]⟩)).trans hapart
    · rcases hmoved.phase with e | e
      · exact e
      · rw [e, hbody]
    · rintro (e | e)
      · rw [hbody] at e
        cases e
      · omega
    · intro _ _ hq
      have hjoins := State.joinQueue_of_waiting (s := (s.resumed a l).modHead a (Load.enterAdmitting .resume)) a hq
      rw [hjoins] at hm ⊢
      have hmeq : m = (l.resume (s.defn a).rstVol).enterAdmitting .resume := Option.some.inj (hm.symm.trans hadmit)
      rw [hmeq]
      exact ⟨rfl, rfl, rfl, State.attend_pending_same _ _⟩
  · rename_i hjoin
    obtain ⟨harm, -, hapart⟩ := State.enterFlowing_moving hhead (phase := l.phase) (.inr rfl)
    obtain ⟨n, adds, hm⟩ := State.enterFlowing_head l.phase hhead
    have hmoved : ∃ m, (State.enterFlowing a l.phase (s.resumed a l)).head a = some m ∧
        Moved ((s.resumed a l).strokesBarred a) (l.resume (s.defn a).rstVol) m :=
      (State.enterFlowing_moving hhead (.inr rfl)).head
    obtain ⟨m, hm', hmoved⟩ := hmoved
    have hmeq := Option.some.inj (hm'.symm.trans hm)
    refine ⟨(congrArg (fun x => x.flow.resumeVol) harm).trans hvol, (s.resumed_apart a l).trans hapart, m, hm',
      hmoved.still, ?_, fun _ => ?_, fun hb hr => ?_⟩
    · rw [hmeq]
      rfl
    · rw [hmeq]
      rfl
    · exact absurd (by simp [hb, hr]) hjoin

/-- The test of a resume (R191) is the statement's. -/
theorem State.resumeOk_iff (s : State) (a : ArmId) (l : Load) :
    s.resumeOk a l = true ↔
      (s.arm a).locked = false ∧ (∀ n, s.laneOf a = some n → (s.lane n).shut = false) ∧
        (s.arm a).permissive = some true ∧ ∀ x ∈ l.holdDetails, x.1 ∈ l.holds → s.conditionStands a x = false := by
  have hlane : s.armLaneShut a = false ↔ ∀ n, s.laneOf a = some n → (s.lane n).shut = false := by
    unfold State.armLaneShut
    cases s.laneOf a <;> simp
  simp only [State.resumeOk, Bool.and_eq_true, Bool.not_eq_true', beq_iff_eq, List.all_eq_true, hlane,
    Bool.and_eq_false_imp, List.contains_iff_mem, and_assoc]

/-- Settles O18: the test of R191 decides, and a resume that passes it moves the load into the header or into FLOWING. -/
theorem resumeMovesTheLoadOn : Obligations.ResumeMovesTheLoadOn := by
  intro a l s hp hl hst passes resumed
  obtain ⟨-, harm, -⟩ := State.head_some hl
  have hresumed : resumed (s.takeResume a l) := by
    obtain ⟨hvol, hapart, m, hm, hstill, hphase, hflow, hwait⟩ := State.takeResume_resumes hl
    refine ⟨⟨m, hm, (congrArg Load.number hstill :), hphase, (congrArg Load.v hstill :), (congrArg Load.holds hstill :),
      (congrArg Load.resumes hstill :), (congrArg Load.rstLeft hstill :), Load.consec_of_still hstill ?_, hflow, hwait⟩,
      hvol, apartFrom_of (State.takeResume_kept a l s) hapart⟩
    intro e he
    obtain ⟨x, -, rfl⟩ := List.mem_map.mp he
    rfl
  have hpress : s.pressStart a = if s.resumeOk a l then s.takeResume a l else s := by
    simp [State.pressStart, hl, hst]
  refine ⟨fun hpass _ _ => ?_, fun hfail => ?_⟩
  · have hok := (s.resumeOk_iff a l).mpr hpass
    refine ⟨⟨_, (event_powered hp).trans (congrArg _ (hpress.trans (if_pos hok))), hresumed⟩, fun f n hsend hparse hn => ?_⟩
    have haccept : resumeAccept n s = s.takeResume a l := by
      simp [resumeAccept, hn, harm]
    refine ⟨_, request_accepted ⟨hp, hsend⟩ hparse ?_, ?_⟩
    · simp [resumeRefusal, hn, hst, harm, hok, firstFailure]
    · rw [haccept]
      exact hresumed
  · have hok : s.resumeOk a l = false := by
      rw [Bool.eq_false_iff]
      exact fun h => hfail ((s.resumeOk_iff a l).mp h)
    refine ⟨(event_powered hp).trans (congrArg _ (hpress.trans (if_neg (by simp [hok])))), fun f n hsend hparse hn => ?_⟩
    refine request_refused ⟨hp, hsend⟩ hparse ?_
    simp [resumeRefusal, hn, hst, harm, hok, firstFailure]

end Sys2Proof.Machine

end

section
/-! PROOFS. A START press taken on an AUTHORIZED load (R5(a), R66, R123, R154): O19. -/

namespace Sys2Proof.Machine

theorem State.startOk_of {s : State} {a : ArmId} (hp : (s.arm a).permissive = some true)
    (hlock : (s.arm a).locked = false) (hlane : ∀ n, s.laneOf a = some n → (s.lane n).shut = false) :
    s.startOk a = true := by
  have hopen : s.armLaneShut a = false := by
    unfold State.armLaneShut
    cases h : s.laneOf a with
    | none => rfl
    | some n => exact hlane n h
  simp [State.startOk, hp, hlock, hopen]

theorem State.startCauses_of {s : State} (a : ArmId) (l : Load) (hprobe : ∀ m, (s.meter m).probe ≠ .fault)
    (hsupply : ∀ j, (s.injector j).supplyLow = false) : s.startCauses a l = [] := by
  simp [State.startCauses, hprobe, hsupply]

/-- A START press that finds no condition standing moves the load alone. -/
theorem State.takeStart_of_clear {s : State} {a : ArmId} {l : Load} (h : s.startCauses a l = []) :
    s.takeStart a l =
      { (s.prepareStart a l).moveStart a l with choices := ((s.prepareStart a l).moveStart a l).choices + 1 } := by
  rw [State.takeStart, h]
  rfl

theorem State.prepareStart_eq (a : ArmId) (l : Load) (s : State) :
    s.prepareStart a l =
      State.forAll (l.adds.map (·.inj)) (fun j t => t.modInjector j Injector.serve) (s.modArm a Arm.beginLoad) := rfl

theorem State.prepareStart_arms (a : ArmId) (l : Load) (s : State) :
    (s.prepareStart a l).arms = (s.modArm a Arm.beginLoad).arms := by
  rw [State.prepareStart_eq]
  exact State.forAll_keeps (P := fun t => t.arms = (s.modArm a Arm.beginLoad).arms) rfl fun _ _ _ ht => ht

theorem State.prepareStart_arm (a : ArmId) (l : Load) (s : State) :
    (s.prepareStart a l).arm a = (s.arm a).beginLoad := by
  rw [State.arm, State.prepareStart_arms, ← State.arm, State.modArm_arm_same]

theorem State.prepareStart_header (a : ArmId) (l : Load) (s : State) : (s.prepareStart a l).header = s.header := by
  rw [State.prepareStart_eq]
  exact State.forAll_keeps (P := fun t => t.header = s.header) rfl fun _ _ _ ht => ht

theorem State.prepareStart_recipeOf (a : ArmId) (k l : Load) (s : State) :
    (s.prepareStart a k).recipeOf l = s.recipeOf l := by
  rw [State.prepareStart_eq]
  exact State.forAll_keeps (P := fun t => t.recipeOf l = s.recipeOf l) rfl fun _ _ _ ht => ht

theorem State.prepareStart_apart {M : ArmId → Prop} (a : ArmId) (l : Load) (s : State) :
    Apart a M s (s.prepareStart a l) := by
  rw [State.prepareStart_eq]
  exact (State.modArm_apart (g := Arm.beginLoad) fun _ => ⟨rfl, rfl⟩).trans
    (State.forAll_apart fun _ _ _ => State.modInjector_apart _ _)

theorem State.flowEntered_started {a : ArmId} {s : State} (phase : Phase) :
    ((s.flowEntered a phase).arm a).flow.started = true := by
  unfold State.flowEntered
  dsimp only
  split
  · assumption
  · refine (State.evalProfile_frame (W := (· = a)) (P := (· = a)) rfl rfl _).started a ?_
    rw [State.modFlow_arm, if_pos rfl]

/-- An arm whose load has entered FLOWING has begun its flow (R124). -/
theorem State.enterFlowing_started {a : ArmId} {s : State} (phase : Phase) :
    ((s.enterFlowing a phase).arm a).flow.started = true := by
  rw [State.enterFlowing_eq, State.testAllFiring_arm]
  exact (State.formSplit_frame (W := fun _ => False) (P := fun _ => True) trivial fun _ _ => trivial).started a
    (State.flowEntered_started phase)

/-- What holds where a taken START press has moved the load on. -/
structure Starts (a : ArmId) (l : Load) (s t : State) : Prop where
  arm   : (t.arm a).still = (s.arm a).beginLoad.still
  apart : Apart a (s.member a) s t
  head  : ∃ m, t.head a = some m ∧ m.still = l.still ∧
            ((s.recipeOf l).r = 0 → m.state = .flowing ∧ m.phase = .body ∧ (t.arm a).flow.started = true) ∧
            (0 < (s.recipeOf l).r → s.header.queue ≠ [] →
              m.state = .admitting ∧ m.admitFrom = some .start ∧ t.header.queue = s.header.queue ++ [a] ∧
                t.arm a = (s.arm a).beginLoad ∧ t.attention.pending[Source.admissionWait.index] = true)

theorem State.moveStart_starts {s : State} {a : ArmId} {l : Load} (hl : s.head a = some l) :
    Starts a l s ((s.prepareStart a l).moveStart a l) := by
  have harm := s.prepareStart_arm a l
  have hhead : (s.prepareStart a l).head a = some l := (State.head_congr (s.prepareStart_loads a l) a).trans hl
  have hheader := s.prepareStart_header a l
  have hapart := s.prepareStart_apart (M := s.member a) a l
  have hmember : (s.prepareStart a l).member a = s.member a := by
    unfold State.member
    rw [hheader]
  unfold State.moveStart
  rw [State.prepareStart_recipeOf]
  generalize s.prepareStart a l = u at harm hhead hheader hapart hmember ⊢
  split
  · have hadmit : (u.modHead a (Load.enterAdmitting .start)).head a = some (l.enterAdmitting .start) := by
      rw [State.modHead_head (f := Load.enterAdmitting .start) (fun _ _ => ⟨rfl, nofun⟩), if_pos rfl, hhead,
        Option.map_some]
    obtain ⟨harm', ⟨m, hm, hmoved⟩, hapart'⟩ := State.joinQueue_moving hadmit
    refine ⟨harm'.trans (congrArg Arm.still harm), ?_, m, hm, hmoved.still, fun h => by omega, fun _ hq => ?_⟩
    · have h1 := State.modHead_apart (f := Load.enterAdmitting .start) (M := s.member a) (a := a) (s := u)
        fun _ _ => ⟨rfl, nofun⟩
      exact (hapart.trans h1).trans (hmember ▸ hapart')
    · have hjoins := State.joinQueue_of_waiting (s := u.modHead a (Load.enterAdmitting .start)) a
        (by rw [State.modHead_header, hheader]; exact hq)
      change (State.joinQueue a (u.modHead a (Load.enterAdmitting .start))).head a = some m at hm
      have hgoal : m.state = .admitting ∧ m.admitFrom = some .start := by
        rw [hjoins] at hm
        rw [Option.some.inj (hm.symm.trans hadmit)]
        exact ⟨rfl, rfl⟩
      refine ⟨hgoal.1, hgoal.2, ?_⟩
      refine (congrArg (fun t : State => t.header.queue = s.header.queue ++ [a] ∧ t.arm a = (s.arm a).beginLoad ∧
        t.attention.pending[Source.admissionWait.index] = true) hjoins).mpr ⟨?_, harm, State.attend_pending_same _ _⟩
      rw [← hheader]
      rfl
  · obtain ⟨harm', ⟨m, hm, hmoved⟩, hapart'⟩ := State.enterFlowing_moving hhead (phase := .body) (.inl rfl)
    obtain ⟨n, adds, hm'⟩ := State.enterFlowing_head .body hhead
    have hmeq := Option.some.inj (hm.symm.trans hm')
    refine ⟨harm'.trans (congrArg Arm.still harm), hapart.trans (hmember ▸ hapart'), m, hm, hmoved.still, fun _ => ?_,
      fun h => by omega⟩
    rw [hmeq]
    exact ⟨rfl, rfl, State.enterFlowing_started .body⟩

theorem State.takeStart_starts {s : State} {a : ArmId} {l : Load} (hl : s.head a = some l)
    (h : s.startCauses a l = []) : Starts a l s (s.takeStart a l) := by
  have hmove := State.moveStart_starts hl
  rw [State.takeStart_of_clear h]
  generalize (s.prepareStart a l).moveStart a l = t at hmove ⊢
  exact ⟨hmove.arm, hmove.apart.trans (.of_same rfl rfl rfl rfl), hmove.head⟩

/-- Settles O19: with no condition standing the press sets up the arm and moves the load. -/
theorem startPressStartsTheLoad : Obligations.StartPressStartsTheLoad := by
  intro a l s hp hl hst hperm hlock hlane hprobe hsupply _ _
  have hpress : s.pressStart a = s.takeStart a l := by
    simp [State.pressStart, hl, hst, State.startOk_of hperm hlock hlane]
  have hkept := State.takeStart_kept a l s
  have hstarts := State.takeStart_starts hl (State.startCauses_of a l hprobe hsupply)
  generalize s.takeStart a l = t at hpress hkept hstarts
  obtain ⟨harm, hapart, m, hm, hstill, hflow, hwait⟩ := hstarts
  refine ⟨t, (event_powered hp).trans (congrArg _ hpress), apartFrom_of hkept hapart,
    (congrArg Arm.strayBase harm :), (congrArg Arm.strayEth harm :), (congrArg Arm.strayVol harm :),
    (congrArg Arm.leakWatch harm :), (congrArg (fun x => x.flow.resumeVol) harm :), (congrArg Arm.endStage harm :),
    m, hm, (congrArg Load.number hstill :), (congrArg Load.v hstill :), (congrArg Load.base hstill :),
    (congrArg Load.eth hstill :), hflow, fun hr hq => ?_⟩
  obtain ⟨hadmit, hfrom, hqueue, hown, hatt⟩ := hwait hr hq
  exact ⟨hadmit, hfrom, hqueue, congrArg Arm.flow hown, hatt⟩

end Sys2Proof.Machine

end

section
/-! PROOFS. A pulse credited to a load and the interval close it can bring (R79, R101 to R104), with the statement about
the close-ahead point (O32). -/

namespace Sys2Proof.Machine

/-! ### The credit (R79(c)) -/

theorem Load.credit_base (x : Meter) (l : Load) :
    l.credit x .base =
      { l with
        base := { l.base with
          pulses := min 4294967295 (l.base.pulses + 1)
          gross := min 4294967295 (min 4294967295 (l.base.pulses + 1) * 100 * x.mf / x.k) }
        v := min 4294967295
          (min 4294967295 (min 4294967295 (l.base.pulses + 1) * 100 * x.mf / x.k) + l.eth.gross) } := by
  simp only [Load.credit, Load.modAccount, sat, volumeMax, pulseVolume, min_comm]

theorem Load.credit_ethanol (x : Meter) (l : Load) :
    l.credit x .ethanol =
      { l with
        eth := { l.eth with
          pulses := min 4294967295 (l.eth.pulses + 1)
          gross := min 4294967295 (min 4294967295 (l.eth.pulses + 1) * 100 * x.mf / x.k) }
        v := min 4294967295
          (l.base.gross + min 4294967295 (min 4294967295 (l.eth.pulses + 1) * 100 * x.mf / x.k)) } := by
  simp only [Load.credit, Load.modAccount, sat, volumeMax, pulseVolume, min_comm]

theorem Load.credit_keeps (x : Meter) (r : Role) {l : Load} (hl : l.state ≠ .ended) :
    (l.credit x r).arm = l.arm ∧ (l.credit x r).state ≠ .ended := by
  cases r <;> exact ⟨rfl, hl⟩

/-- A pulse on a meter of an arm whose load is in progress (R79(c)). -/
theorem State.takePulse_running {s : State} {m : MeterId} {a : ArmId} {r : Role} {l : Load}
    (hb : s.meterBinding m = some (a, r)) (hl : s.head a = some l) (hrun : l.state.inProgress = true) :
    s.takePulse m = State.reportPulse a r m (l.state == .settling) (State.closeIfDue a
      ((s.modMeter m Meter.pulse).modHead a (Load.credit ((s.modMeter m Meter.pulse).meter m) r))) := by
  have hrunning : (s.modMeter m Meter.pulse).running a = some l := by
    rw [State.running_of_head (s := s.modMeter m Meter.pulse) hl, if_pos hrun]
  rw [State.takePulse_eq, hb]
  dsimp only
  rw [State.boundPulse, hrunning]

/-- A credit takes the factors of the meter, which the pulse's window leaves. -/
theorem Load.credit_window (x : Meter) (r : Role) (l : Load) : l.credit x.pulse r = l.credit x r := rfl

/-- The state in which a pulse of a load in progress has been credited. -/
def State.pulsed (s : State) (m : MeterId) (a : ArmId) (r : Role) : State :=
  (s.modMeter m Meter.pulse).modHead a (Load.credit (s.meter m) r)

theorem State.takePulse_credited {s : State} {m : MeterId} {a : ArmId} {r : Role} {l : Load}
    (hb : s.meterBinding m = some (a, r)) (hl : s.head a = some l) (hrun : l.state.inProgress = true) :
    s.takePulse m = State.reportPulse a r m (l.state == .settling) (State.closeIfDue a (s.pulsed m a r)) := by
  rw [State.takePulse_running hb hl hrun, State.modMeter_meter, if_pos rfl]
  rfl

theorem State.pulsed_head {s : State} {m : MeterId} {a : ArmId} {r : Role} {l : Load} (hl : s.head a = some l) :
    (s.pulsed m a r).head a = some (l.credit (s.meter m) r) := by
  rw [State.pulsed, State.modHead_head (f := Load.credit (s.meter m) r) fun _ => Load.credit_keeps _ _, if_pos rfl]
  exact congrArg (Option.map _) hl

/-- A pulse changes no factor that a net close takes. -/
theorem State.pulsed_closedAccount (s : State) (m i : MeterId) (a : ArmId) (r : Role) (c : Account) :
    closedAccount ((s.pulsed m a r).meter i) c = closedAccount (s.meter i) c := by
  have hmeter : (s.pulsed m a r).meter i = (s.modMeter m Meter.pulse).meter i := rfl
  rw [hmeter, State.modMeter_meter]
  split <;> rfl

theorem State.pulsed_closedEth (s : State) (m : MeterId) (a : ArmId) (r : Role) (d : ArmDef) (c : Account) :
    (s.pulsed m a r).closedEth d c = s.closedEth d c := by
  unfold State.closedEth
  cases d.ethMeter with
  | none => rfl
  | some e => exact s.pulsed_closedAccount m e a r c

/-! ### The interval close (R101 to R104) -/

theorem nextBoundary_le_closeAhead {w db ca vc : Nat} (h : vc < ca) : nextBoundary w db ca vc ≤ ca := by
  simp only [nextBoundary, if_pos h]
  exact min_le_right _ _

/-- The states in which an interval close writes the deviation (R104, step 3). -/
def LoadState.lined : LoadState → Bool
  | .admitting | .flowing | .held => true
  | .authorized | .ending | .settling | .ended => false

/-- The record after steps 1 to 3 of a close in ADMITTING, FLOWING or HELD (R85, R104, R106). -/
theorem State.closeAccounts_lined {s : State} {l : Load} (h : l.state.lined = true) :
    s.closeAccounts l =
      { l with
        vc := l.v
        base := closedAccount (s.meter (s.defn l.arm).baseMeter) l.base
        eth := s.closedEth (s.defn l.arm) l.eth
        dev := ethLine l.et l.ea l.db l.va l.v - l.eth.gross
        peak := max l.peak (ethLine l.et l.ea l.db l.va l.v - l.eth.gross).natAbs } := by
  have hlined : (l.state == .admitting || l.state == .flowing || l.state == .held) = true := by
    revert h
    cases l.state <;> decide
  have hgross : (s.closedEth (s.defn l.arm) l.eth).gross = l.eth.gross := by
    unfold State.closedEth
    cases (s.defn l.arm).ethMeter <;> rfl
  rw [State.closeAccounts, State.netCloseLoad_live]
  dsimp only
  rw [if_pos hlined, Load.writeDeviation]
  dsimp only
  rw [hgross]

theorem State.closeAccounts_keeps (s : State) {l : Load} (hl : l.state ≠ .ended) :
    (s.closeAccounts l).arm = l.arm ∧ (s.closeAccounts l).state ≠ .ended :=
  ⟨(s.closeAccounts_kept hl).arm, by rwa [(s.closeAccounts_stage l).1]⟩

/-- The state after steps 1 to 3 of a close. -/
def State.closed (s : State) (a : ArmId) : State := s.modHead a s.closeAccounts

theorem State.closed_head {s : State} {a : ArmId} {l : Load} (hl : s.head a = some l) :
    (s.closed a).head a = some (s.closeAccounts l) := by
  rw [State.closed, State.modHead_head fun _ => s.closeAccounts_keeps, if_pos rfl, hl, Option.map_some]

/-- A close in its steps, once the findings have been acted on. -/
theorem State.intervalClose_of {s : State} {a : ArmId} {l k : Load} (hl : s.head a = some l)
    (hk : ((s.closed a).actFindings a (s.closeAccounts l)).head a = some k) :
    s.intervalClose a =
      let u := (s.closed a).actFindings a (s.closeAccounts l)
      let t := State.handToInjectors a (State.handToFlow a
        (if k.inBody then u.modHead a (Load.shareAndAlarm (s.defn a) (u.recipeOf k)) else u))
      if k.alarmRaised (s.defn a) (u.recipeOf k) then t.raiseRatio a k.dev else t := by
  have hclosed := State.closed_head hl
  unfold State.intervalClose
  simp only [show s.modHead a s.closeAccounts = s.closed a from rfl, hclosed, hk]

theorem State.closeIfDue_of {s : State} {a : ArmId} {l : Load} (hl : s.head a = some l) (hst : l.state.closes = true)
    (hv : nextBoundary (s.defn a).w l.db (closeAhead l.preset (s.defn a).a) l.vc ≤ l.v) :
    s.closeIfDue a = s.intervalClose a := by
  simp [State.closeIfDue, hl, hst, hv]

/-! ### The close-ahead point (R8, R113, R138) -/

theorem State.awaitFinal_rest (a : ArmId) (s : State) :
    s.awaitFinal a = { s with
      arms := (s.modArm a fun x => { x with endStage := .awaitingFinal }).arms
      injectors := (s.awaitFinal a).injectors } := by
  unfold State.awaitFinal
  have h : State.forAll (s.servingChannels a) (fun j t => t.modInjector j fun x => { x with catchUp := 0 }) s =
      { s with injectors :=
        (State.forAll (s.servingChannels a) (fun j t => t.modInjector j fun x => { x with catchUp := 0 }) s).injectors } :=
    State.forAll_keeps (P := fun t => t = { s with injectors := t.injectors }) rfl fun j _ t ht => by rw [ht]; rfl
  rw [h]
  rfl

/-- An arm that waits for the end of its settle (R175). -/
def Arm.await (x : Arm) : Arm := { x with endStage := .awaitingFinal }

theorem State.awaitFinal_arm (a : ArmId) (s : State) : (s.awaitFinal a).arm a = (s.arm a).await := by
  rw [State.awaitFinal_rest]
  exact State.modArm_arm_same a Arm.await s

/-- What holds where a load has entered SETTLING with no outcome pending. -/
structure Settles (a : ArmId) (m : Load) (x : Arm) (t : State) : Prop where
  head    : t.head a = some m
  arm     : t.arm a = x
  outside : t.outside a

theorem State.enterSettling_settles_none {s : State} {a : ArmId} {l : Load} (hl : s.head a = some l)
    (ha : s.waits a = false) : Settles a (l.enterSettle none) (s.arm a).startSettle.await (s.enterSettling a none) := by
  obtain ⟨hhead, harm, hout, -⟩ := State.withdrawn_spec (f := Load.enterSettle none) (g := Arm.startSettle)
    (fun _ => Load.enterSettle_keeps none) (fun _ => ⟨rfl, rfl⟩) hl (.inl ha)
  have heq : s.enterSettling a none = (s.withdrawn a (Load.enterSettle none) Arm.startSettle).awaitFinal a := by
    rw [State.enterSettling_eq, if_neg (by decide)]
    rfl
  rw [heq]
  refine ⟨?_, ?_, ?_⟩
  · rw [State.awaitFinal_rest]
    exact hhead
  · rw [State.awaitFinal_arm, harm]
  · rw [State.awaitFinal_rest]
    exact hout

/-- A load in SETTLING has no split, no lag and no profile: the close that brought it writes its strokes due alone. -/
theorem State.hand_of_settling {s : State} {a : ArmId} {l : Load} (hl : s.head a = some l) (hst : l.state = .settling)
    (hout : s.outside a) :
    ∃ adds, Settles a { l with adds := adds } (s.arm a) (State.handToInjectors a (s.handToFlow a)) := by
  have hflow : s.handToFlow a = s := by
    unfold State.handToFlow
    rw [State.headIs_of_head hl, hst]
    refine (congrArg (State.formSplit a) (if_neg (by simp [LoadState.closes, LoadState.preSettling]))).trans ?_
    exact State.formSplit_of_not (by rw [State.headIs_of_head hl, hst]; rfl)
  have hdue : (s.modHead a fun l => s.writeDue l.v l).head a = some (s.writeDue l.v l) := by
    rw [State.modHead_head (f := fun l => s.writeDue l.v l) (fun k hk => ⟨rfl, hk⟩), if_pos rfl, hl, Option.map_some]
  have hlag : State.judgeLag a (s.modHead a fun l => s.writeDue l.v l) = s.modHead a fun l => s.writeDue l.v l := by
    unfold State.judgeLag
    rw [hdue]
    exact if_neg (by rw [State.writeDue_eq, Load.withAdds, hst]; decide)
  rw [hflow]
  unfold State.handToInjectors
  rw [hlag]
  obtain ⟨adds, hadds⟩ := State.testAllFiring_head hdue
  refine ⟨adds, hadds, ?_, ?_⟩
  · rw [State.testAllFiring_arm, State.modHead_arm]
  · rw [State.outside, State.testAllFiring_header]
    exact hout

/-- A pulse told to the flow unit, where no restart volume is left and the close has brought SETTLING. -/
theorem State.reportPulse_of_settling {s : State} {a : ArmId} {l : Load} (r : Role) (m : MeterId)
    (hl : s.head a = some l) (hst : l.state = .settling) (hleft : l.rstLeft = 0) :
    s.reportPulse a r m false = s := by
  have hrestart : s.updateRestart a = s := by
    simp [State.updateRestart, hl, hleft]
  simp [State.reportPulse, hrestart, hl, hst]

/-- What the close at the close-ahead point leaves of a FLOWING load. -/
theorem State.intervalClose_ahead {s : State} {a : ArmId} {l : Load} (hl : s.head a = some l) (hst : l.state = .flowing)
    (ha : s.waits a = false) (hv : closeAhead l.preset (s.defn a).a ≤ l.v) :
    ∃ adds, Settles a { (s.closeAccounts l).enterSettle none with adds := adds } (s.arm a).startSettle.await
      (s.intervalClose a) := by
  have hclosed := State.closed_head hl
  have hlined := State.closeAccounts_lined (s := s) (l := l) (by rw [hst]; rfl)
  have hact : (s.closed a).actFindings a (s.closeAccounts l) = (s.closed a).enterSettling a none := by
    rw [State.actFindings, hlined]
    exact if_pos hv
  obtain ⟨hhead, harm, hout⟩ := State.enterSettling_settles_none hclosed ha
  have hclose := State.intervalClose_of hl (hact ▸ hhead)
  rw [hact] at hclose
  have hnot : ((s.closeAccounts l).enterSettle none).inBody = false := rfl
  simp only [hnot, Load.alarmRaised, Bool.false_and, if_neg Bool.false_ne_true] at hclose
  obtain ⟨adds, hsettles⟩ := State.hand_of_settling hhead rfl hout
  rw [harm] at hsettles
  exact ⟨adds, by rw [hclose]; exact hsettles⟩

/-- Settles O32: the pulse is credited and the close it brings ends the flow. -/
theorem closeAheadBeginsTheSettle : Obligations.CloseAheadBeginsTheSettle := by
  intro m a l s hp hb hbase hl hst hleft hpend hw pulses gross v gained num hreach hbefore
  obtain ⟨-, harm, -⟩ := State.head_some hl
  have hhead := State.pulsed_head (m := m) (r := .base) hl
  have hcredit := Load.credit_base (s.meter m) l
  have hkl : (l.credit (s.meter m) .base).state = .flowing := by rw [hcredit]; exact hst
  have hclose : (s.pulsed m a .base).closeIfDue a = (s.pulsed m a .base).intervalClose a := by
    refine State.closeIfDue_of hhead (by rw [hkl]; rfl) ?_
    rw [hcredit]
    exact (nextBoundary_le_closeAhead hbefore).trans hreach
  obtain ⟨adds, hset, hown, hout⟩ := State.intervalClose_ahead hhead hkl hw (by rw [hcredit]; exact hreach)
  have htake : s.takePulse m = (s.pulsed m a .base).intervalClose a := by
    rw [State.takePulse_credited hb hl (by rw [hst]; rfl), hst, hclose]
    refine State.reportPulse_of_settling .base m hset rfl ?_
    rw [State.closeAccounts_lined (by rw [hkl]; rfl), hcredit]
    exact hleft
  have hlined := State.closeAccounts_lined (s := s.pulsed m a .base) (l := l.credit (s.meter m) .base) (by rw [hkl]; rfl)
  have hdefn : (s.pulsed m a .base).defn l.arm = s.defn a := by rw [harm]; rfl
  rw [hcredit] at hlined
  simp only [hdefn, hbase, State.pulsed_closedAccount, State.pulsed_closedEth] at hlined
  rw [hcredit, hlined] at hset
  refine ⟨_, (event_powered hp).trans (congrArg _ htake), ⟨_, hset, rfl, rfl, hpend, ?_, rfl, rfl, rfl, ?_⟩, ?_⟩
  · exact Bool.or_false _
  · refine ⟨rfl, rfl, rfl, rfl, rfl, rfl, ?_⟩
    unfold State.closedEth
    cases (s.defn a).ethMeter <;> rfl
  · rw [hown]
    exact ⟨rfl, rfl, rfl, rfl, rfl, hout.participates, hout.waits⟩

end Sys2Proof.Machine

end

section
/-! PROOFS. The admission of the head of the queue (R155): O41. -/

namespace Sys2Proof.Machine

/-- A cascade of admissions takes arms from the head of the queue to the tail of the participants. -/
theorem State.evaluateQueueFor_members (n : Nat) (s : State) :
    ∃ k, (State.evaluateQueueFor n s).header.queue = s.header.queue.drop k ∧
      (State.evaluateQueueFor n s).header.parts.map (·.arm) =
        s.header.parts.map (·.arm) ++ s.header.queue.take k := by
  induction n generalizing s with
  | zero => exact ⟨0, rfl, (List.append_nil _).symm⟩
  | succ n ih =>
    unfold State.evaluateQueueFor
    split
    · exact ⟨0, rfl, (List.append_nil _).symm⟩
    · rename_i a rest hq
      split
      · obtain ⟨hqueue, hparts⟩ := s.admitHead_members a
        obtain ⟨k, hk, hk'⟩ := ih (s.admitHead a)
        refine ⟨k + 1, ?_, ?_⟩
        · rw [hk, hqueue, List.drop_drop, Nat.add_comm]
        · rw [hk', hparts, hqueue, hq]
          simp
      · exact ⟨0, rfl, (List.append_nil _).symm⟩

/-- A cascade leaves an arm that does not wait: its records, its place among the participants and its flow, once begun. -/
theorem State.evaluateQueueFor_of_not_waiting {a : ArmId} (n : Nat) {s : State} (hq : a ∉ s.header.queue) :
    (State.evaluateQueueFor n s).head a = s.head a ∧
      ((s.arm a).flow.started = true → ((State.evaluateQueueFor n s).arm a).flow.started = true) ∧
      a ∉ (State.evaluateQueueFor n s).header.queue ∧
      (a ∈ s.header.parts.map (·.arm) → a ∈ (State.evaluateQueueFor n s).header.parts.map (·.arm)) := by
  obtain ⟨hframe, -⟩ := State.evaluateQueueFor_frame (W := (· ∈ s.header.queue)) (P := fun _ => True)
    (fun _ _ => trivial) n ⟨fun _ => id, fun _ _ => trivial⟩
  obtain ⟨k, hqueue, hparts⟩ := State.evaluateQueueFor_members n s
  refine ⟨hframe.head hq, hframe.started a, fun h => hq ?_, fun h => ?_⟩
  · rw [hqueue] at h
    exact List.mem_of_mem_drop h
  · rw [hparts]
    exact List.mem_append_left _ h

/-- The state in which the head of the queue has become a participant and its load is still to enter FLOWING. -/
def State.joined (a : ArmId) (s : State) : State :=
  State.recomputeGrants none <| s.modHeader fun h =>
    { h with
      queue := h.queue.drop 1
      parts := h.parts ++ [{ arm := a, demand := 0, grant := 0 }] }

theorem State.admitHead_eq (a : ArmId) (s : State) : s.admitHead a = (s.joined a).enterFlowing a .body := rfl

theorem State.joined_frame (a : ArmId) (s : State) :
    Frame (fun _ => False) (fun _ => True) s (s.joined a) :=
  (State.modHeader_frame _ s).trans (State.recomputeGrants_frame none fun _ _ => trivial)

/-- The record of an admitted load (R7, R107, R155). -/
theorem State.admitHead_head {s : State} {a : ArmId} {l : Load} (hl : s.head a = some l) :
    ∃ n adds, (s.admitHead a).head a = some
      { l with
        state := .flowing, phase := .body, admitFrom := none
        step := n, adds := adds
        share := shareCommand l.rb l.dev (s.recipeOf l).h (s.defn a).sMax } := by
  have hframe := s.joined_frame a
  obtain ⟨n, adds, h⟩ := State.enterFlowing_head (s := s.joined a) .body ((hframe.head id).trans hl)
  refine ⟨n, adds, ?_⟩
  rw [State.admitHead_eq, h]
  have hrecipe : (s.joined a).recipeOf l = s.recipeOf l := by
    rw [State.recipeOf, State.recipe, hframe.recipes, ← State.recipe, ← State.recipeOf]
  have hdefn : (s.joined a).defn a = s.defn a := by
    rw [State.defn, hframe.defn, ← State.defn]
  rw [hrecipe, hdefn]
  rfl

/-- The criterion of R155 is the statement's. -/
theorem State.admissible_iff (s : State) (a : ArmId) :
    s.admissible a = true ↔
      s.header.lost = false ∧ (s.defn a).eMin ≤ s.header.cap / (s.header.parts.length + 1) ∧
        ∀ p ∈ s.header.parts, (s.defn p.arm).eMin ≤ s.header.cap / (s.header.parts.length + 1) := by
  simp only [State.admissible, Bool.and_eq_true, Bool.not_eq_true', decide_eq_true_eq, List.all_eq_true, and_assoc]

/-- Settles O41: the criterion decides; what is admitted stays, for the cascade behind it takes only arms that wait. -/
theorem admissionFollowsTheCriterion : Obligations.AdmissionFollowsTheCriterion := by
  intro s hp
  refine ⟨fun hq => (event_powered hp).trans (congrArg _ (State.evaluateQueue_of_empty hq)), ?_⟩
  intro a rest hq fair met
  have hlen : s.header.queue.length = rest.length + 1 := by rw [hq, List.length_cons]
  have heval : s.evaluateQueue =
      if s.admissible a then State.evaluateQueueFor rest.length (s.admitHead a) else s := by
    rw [State.evaluateQueue, hlen, State.evaluateQueueFor, hq]
  refine ⟨fun hnot => (event_powered hp).trans (congrArg _ (heval.trans (if_neg fun h => ?_))), fun hmet _ ha l hl hst => ?_⟩
  · exact hnot ((s.admissible_iff a).mp h)
  · rw [if_pos ((s.admissible_iff a).mpr hmet)] at heval
    obtain ⟨hqueue, hparts⟩ := s.admitHead_members a
    have hout : a ∉ (s.admitHead a).header.queue := by
      rw [hqueue, hq]
      exact ha
    obtain ⟨hhead, hstart, hleft, hpart⟩ := State.evaluateQueueFor_of_not_waiting rest.length hout
    obtain ⟨n, adds, hm⟩ := State.admitHead_head hl
    have hin := hpart (by rw [hparts]; simp)
    have hkept : Kept s s.evaluateQueue := s.evaluateQueue_kept
    have hbegun := State.enterFlowing_started (s := s.joined a) (a := a) .body
    rw [← State.admitHead_eq] at hbegun
    have hstarted := hstart hbegun
    have hread := hhead.trans hm
    rw [heval] at hkept
    generalize State.evaluateQueueFor rest.length (s.admitHead a) = t at heval hkept hstarted hread hleft hin
    refine ⟨t, _, (event_powered hp).trans (congrArg _ heval), ?_, State.waits_false.mpr hleft, hread, rfl, rfl,
      rfl, rfl, rfl, rfl, rfl, hstarted, hkept.capacity⟩
    simpa [State.participates] using hin

end Sys2Proof.Machine

end

section
/-! PROOFS. What an operation at one arm leaves of another, member of the header or not (R148 to R156, R186), with the
statement about the pressure (O40). -/

namespace Sys2Proof.Machine

/-! ### What an operation at another arm leaves of an arm -/

/-- What an operation that is not at arm `b` leaves of it: everything but its flow and the entry of its load to FLOWING;
its place and its records where it does not wait, its flow too where it does not participate either. -/
structure Passed (b : ArmId) (s t : State) : Prop where
  lanes : t.lanes = s.lanes
  arm   : (t.arm b).still = (s.arm b).still
  heads : ∀ l, s.head b = some l → ∃ m, t.head b = some m ∧ Moved (s.strokesBarred b) l m
  stays : b ∉ s.header.queue → b ∉ t.header.queue ∧
            (b ∈ t.header.parts.map (·.arm) ↔ b ∈ s.header.parts.map (·.arm)) ∧ t.head b = s.head b
  apart : s.outside b → t.arm b = s.arm b

section
variable {b : ArmId} {s t u : State}

theorem Passed.refl (b : ArmId) (s : State) : Passed b s s :=
  ⟨rfl, rfl, fun l hl => ⟨l, hl, .refl _ l⟩, fun h => ⟨h, Iff.rfl, rfl⟩, fun _ => rfl⟩

theorem Passed.defn (h : Passed b s t) : (t.arm b).defn = (s.arm b).defn := (congrArg Arm.defn h.arm :)

theorem Passed.locked (h : Passed b s t) : (t.arm b).locked = (s.arm b).locked := (congrArg Arm.locked h.arm :)

theorem Passed.laneOf (h : Passed b s t) : t.laneOf b = s.laneOf b := by
  rw [State.laneOf, h.defn, ← State.laneOf]

theorem Passed.lane (h : Passed b s t) (n : LaneId) : t.lane n = s.lane n := by
  rw [State.lane, h.lanes, ← State.lane]

theorem Passed.strokesBarred (h : Passed b s t) : t.strokesBarred b = s.strokesBarred b := by
  simp [State.strokesBarred, State.armLaneShut, h.locked, h.laneOf, h.lane]

theorem Passed.outside (h : Passed b s t) (ho : s.outside b) : t.outside b := by
  obtain ⟨hq, hp, -⟩ := h.stays ho.1
  exact ⟨hq, fun e => ho.2 (hp.mp e)⟩

theorem Passed.trans (h : Passed b s t) (g : Passed b t u) : Passed b s u where
  lanes := g.lanes.trans h.lanes
  arm := g.arm.trans h.arm
  heads := fun l hl => by
    obtain ⟨m, hm, hlm⟩ := h.heads l hl
    obtain ⟨k, hk, hmk⟩ := g.heads m hm
    rw [h.strokesBarred] at hmk
    exact ⟨k, hk, hlm.trans hmk⟩
  stays := fun hq => by
    obtain ⟨hq', hp, hhead⟩ := h.stays hq
    obtain ⟨hq'', hp', hhead'⟩ := g.stays hq'
    exact ⟨hq'', hp'.trans hp, hhead'.trans hhead⟩
  apart := fun ho => (g.apart (h.outside ho)).trans (h.apart ho)

/-- The statement's form of an arm that stays a participant. -/
theorem Passed.participates (h : Passed b s t) (hw : s.waits b = false) :
    t.participates b = s.participates b ∧ t.waits b = false ∧ t.head b = s.head b := by
  obtain ⟨hq, hp, hhead⟩ := h.stays (State.waits_false.mp hw)
  refine ⟨?_, State.waits_false.mpr hq, hhead⟩
  rw [Bool.eq_iff_iff]
  simpa [State.participates] using hp

theorem Frame.toPassed {W P : ArmId → Prop} (h : Frame W P s t) (hW : b ∉ s.header.queue → ¬ W b)
    (hP : s.outside b → ¬ P b)
    (hm : b ∉ s.header.queue → b ∉ t.header.queue ∧
      (b ∈ t.header.parts.map (·.arm) ↔ b ∈ s.header.parts.map (·.arm))) : Passed b s t :=
  ⟨h.lanes, h.arms b, h.heads b, fun hq => ⟨(hm hq).1, (hm hq).2, h.head (hW hq)⟩, fun ho => h.apart b (hP ho)⟩

theorem SameMembers.stays (h : SameMembers s t) (hq : b ∉ s.header.queue) :
    b ∉ t.header.queue ∧ (b ∈ t.header.parts.map (·.arm) ↔ b ∈ s.header.parts.map (·.arm)) := by
  rw [h.queue, h.arms]
  exact ⟨hq, Iff.rfl⟩

/-- A state that differs in no arm, record or member of the header. -/
theorem Passed.of_same (hl : t.loads = s.loads) (ha : t.arms = s.arms) (hn : t.lanes = s.lanes)
    (hm : SameMembers s t) : Passed b s t := by
  have harm : t.arm b = s.arm b := by rw [State.arm, ha, ← State.arm]
  have hhead : t.head b = s.head b := State.head_congr hl b
  refine ⟨hn, by rw [harm], fun l h => ⟨l, hhead.trans h, .refl _ l⟩, fun hq => ?_, fun _ => harm⟩
  exact ⟨(hm.stays hq).1, (hm.stays hq).2, hhead⟩

theorem State.attend_passed (x : Source) (s : State) : Passed b s (s.attend x) :=
  .of_same rfl rfl rfl (.of_header rfl)

theorem State.modInjector_passed (j : InjId) (f : Injector → Injector) (s : State) : Passed b s (s.modInjector j f) :=
  .of_same rfl rfl rfl (.of_header rfl)

/-! ### Operations at another arm -/

section
variable {x : ArmId}

theorem State.modHead_passed {f : Load → Load} (hx : b ≠ x) (hf : ∀ l, l.state ≠ .ended → (f l).arm = l.arm) :
    Passed b s (s.modHead x f) := by
  have hhead : (s.modHead x f).head b = s.head b := State.modHead_head_ne hf hx
  exact ⟨rfl, rfl, fun l h => ⟨l, hhead.trans h, .refl _ l⟩, fun hq => ⟨hq, Iff.rfl, hhead⟩, fun _ => rfl⟩

theorem State.modArm_passed (f : Arm → Arm) (hx : b ≠ x) : Passed b s (s.modArm x f) := by
  have harm : (s.modArm x f).arm b = s.arm b := State.modArm_arm_ne hx f s
  exact ⟨rfl, by rw [harm], fun l h => ⟨l, h, .refl _ l⟩, fun hq => ⟨hq, Iff.rfl, rfl⟩, fun _ => harm⟩

theorem State.modFlow_passed (f : FlowState → FlowState) (hx : b ≠ x) : Passed b s (s.modFlow x f) :=
  State.modArm_passed _ hx

theorem State.forAll_passed {α : Type} {l : List α} {f : α → State → State}
    (h : ∀ y ∈ l, ∀ t, Passed b t (f y t)) : Passed b s (State.forAll l f s) :=
  State.forAll_keeps (P := fun t => Passed b s t) (.refl b s) fun y hy t ht => ht.trans (h y hy t)

theorem State.recomputeGrants_passed (handing : Option ArmId) (s : State) : Passed b s (s.recomputeGrants handing) :=
  (State.recomputeGrants_frame (W := fun _ => False) (P := (· ∈ s.header.parts.map (·.arm))) handing
    fun _ => id).toPassed (fun _ => id) (fun ho => ho.2) (State.recomputeGrants_sameMembers handing s).stays

theorem State.evaluateQueueFor_passed (n : Nat) (s : State) : Passed b s (State.evaluateQueueFor n s) := by
  obtain ⟨hframe, -⟩ := State.evaluateQueueFor_frame (s := s) (W := (· ∈ s.header.queue))
    (P := fun c => c ∈ s.header.queue ∨ c ∈ s.header.parts.map (·.arm)) (fun _ => .inl) n
    ⟨fun _ => id, fun _ => .inr⟩
  obtain ⟨k, hqueue, hparts⟩ := State.evaluateQueueFor_members n s
  refine hframe.toPassed id (fun ho h => h.elim ho.1 ho.2) fun hq => ⟨fun h => hq ?_, ?_⟩
  · rw [hqueue] at h
    exact List.mem_of_mem_drop h
  · rw [hparts, List.mem_append]
    exact or_iff_left fun h => hq (List.mem_of_mem_take h)

theorem State.evaluateQueue_passed (s : State) : Passed b s s.evaluateQueue := State.evaluateQueueFor_passed _ s

/-- Another arm is taken out of a list of members. -/
theorem State.dropMember_passed {f : Header → Header} (hq : b ∉ s.header.queue → b ∉ (f s.header).queue)
    (hp : b ∈ (f s.header).parts.map (·.arm) ↔ b ∈ s.header.parts.map (·.arm)) : Passed b s (s.modHeader f) :=
  ⟨rfl, rfl, fun l h => ⟨l, h, .refl _ l⟩, fun h => ⟨hq h, hp, rfl⟩, fun _ => rfl⟩

theorem State.leaveHeader_passed (hx : b ≠ x) (s : State) : Passed b s (s.leaveHeader x) := by
  unfold State.leaveHeader
  refine Passed.trans (t := s.leaveParticipants x) ?_ ?_
  · unfold State.leaveParticipants
    split
    · refine Passed.trans (Passed.trans ?_ (State.recomputeGrants_passed none _)) (State.evaluateQueue_passed _)
      refine State.dropMember_passed id ?_
      simp only [List.mem_map, List.mem_filter, bne_iff_ne]
      exact ⟨fun ⟨p, hp, e⟩ => ⟨p, hp.1, e⟩, fun ⟨p, hp, e⟩ => ⟨p, ⟨hp, e ▸ hx⟩, e⟩⟩
    · exact .refl b s
  · unfold State.leaveQueue
    split
    · have hdrop : Passed b (s.leaveParticipants x)
          ((s.leaveParticipants x).modHeader fun h => { h with queue := h.queue.filter (· != x) }) :=
        State.dropMember_passed (fun h e => h (List.mem_filter.mp e).1) Iff.rfl
      dsimp only
      split
      · exact hdrop.trans (State.evaluateQueue_passed _)
      · exact hdrop
    · exact .refl b _

theorem State.formSplit_passed (hx : b ≠ x) (s : State) : Passed b s (s.formSplit x) :=
  (State.formSplit_frame (W := fun _ => False) (P := fun c => c = x ∨ c ∈ s.header.parts.map (·.arm)) (.inl rfl)
    fun _ => .inr).toPassed (fun _ => id) (fun ho h => h.elim hx ho.2) (State.formSplit_sameMembers x s).stays

theorem State.testAllFiring_passed (hx : b ≠ x) (s : State) : Passed b s (s.testAllFiring x) :=
  (State.testAllFiring_frame (W := (· = x)) (P := fun _ => False) rfl s).toPassed (fun _ => hx) (fun _ => id)
    (SameMembers.of_header (State.testAllFiring_header x s)).stays

theorem State.enterSettling_passed (how : Option PendingOutcome) (hx : b ≠ x) (s : State) :
    Passed b s (s.enterSettling x how) := by
  have hset : Passed b s (s.settleEntered x how) :=
    ((State.modHead_passed (f := Load.enterSettle how) hx fun _ h => (Load.enterSettle_keeps how h).1).trans
      (State.modArm_passed _ hx)).trans (State.leaveHeader_passed hx _)
  rw [State.enterSettling_eq]
  split
  · exact hset.trans ((State.forAll_passed fun _ _ _ => State.modInjector_passed _ _ _).trans
      (State.modArm_passed _ hx))
  · exact hset.trans ((State.forAll_passed fun _ _ _ => State.modInjector_passed _ _ _).trans
      (State.modArm_passed _ hx))

theorem State.enterHeld_passed (code : StopCode) (hx : b ≠ x) (s : State) : Passed b s (s.enterHeld x code) := by
  refine Passed.trans (((State.modHead_passed hx fun l _ => ?_).trans (State.modArm_passed _ hx)).trans
    (State.leaveHeader_passed hx _)) (State.attend_passed _ _)
  cases code <;> rfl

theorem State.enterEnding_passed (l : Load) (hx : b ≠ x) (s : State) : Passed b s (s.enterEnding x l) := by
  have hend : Passed b s (State.leaveHeader x <|
      State.modFlow x (fun f => { f with flushQty := flushQuantity (s.recipeOf l).flush l.preset (s.defn x).a l.v, flushStart := l.base.gross }) <|
        s.modHead x fun l => { l with state := .ending, share := 0 }) :=
    ((State.modHead_passed (f := fun l => { l with state := .ending, share := 0 }) hx fun _ _ => rfl).trans
      (State.modFlow_passed _ hx)).trans (State.leaveHeader_passed hx _)
  unfold State.enterEnding
  dsimp only
  split
  · exact hend.trans (State.enterSettling_passed none hx _)
  · exact hend.trans ((State.formSplit_passed hx _).trans (State.testAllFiring_passed hx _))

theorem State.actHold_passed (code : StopCode) (l : Load) (hx : b ≠ x) (s : State) : Passed b s (s.actHold x code l) := by
  unfold State.actHold
  cases l.state with
  | admitting =>
    dsimp only
    split
    · exact ((State.modHead_passed (f := fun l => { l with state := .authorized, admitFrom := none, share := 0 }) hx
        fun _ _ => rfl).trans (State.modArm_passed _ hx)).trans (State.leaveHeader_passed hx _)
    · exact State.enterHeld_passed code hx s
  | flowing => exact State.enterHeld_passed code hx s
  | held => exact State.modHead_passed hx fun l _ => by cases code <;> rfl
  | ending => exact State.enterSettling_passed _ hx s
  | settling | authorized | ended => exact .refl b s

theorem State.actEnd_passed (l : Load) (hx : b ≠ x) (s : State) : Passed b s (s.actEnd x l) := by
  unfold State.actEnd
  cases l.state with
  | admitting | held => exact State.enterSettling_passed _ hx s
  | flowing => exact State.enterEnding_passed l hx s
  | ending | settling | authorized | ended => exact .refl b s

theorem State.takeOnLoad_passed (code : StopCode) (cls : Cls) (det : Detail) (l : Load) (hx : b ≠ x) (s : State) :
    Passed b s (s.takeOnLoad x code cls det l) := by
  have hkeep : Passed b s (s.modHead x (Load.keepDetail code det)) :=
    State.modHead_passed hx fun l _ => by rw [Load.keepDetail_eq]
  have hfill : Passed b s ((s.modHead x (Load.keepDetail code det)).modHead x (Load.fillStop code cls det)) :=
    hkeep.trans (State.modHead_passed hx fun l _ => by rw [Load.fillStop_eq])
  unfold State.takeOnLoad
  dsimp only
  split
  · refine hkeep.trans (Passed.trans (State.modHead_passed hx fun l _ => ?_) (State.attend_passed _ _))
    cases code <;> rfl
  · cases cls with
    | hold => exact hfill.trans (State.actHold_passed code l hx _)
    | endC => exact hfill.trans (State.actEnd_passed l hx _)
    | note | trip => exact hfill

/-- A cause that is no TRIP, taken at another arm. -/
theorem State.takeCause_passed {c : Cause} (det : Detail) (hcls : s.causes[c.index] ≠ .trip) (hx : b ≠ x) :
    Passed b s (s.takeCause x (.cause c) det) := by
  unfold State.takeCause
  dsimp only
  split
  · rename_i htrip
    exact absurd htrip hcls
  · split
    · exact .refl b s
    · split
      · exact (State.modHead_passed (f := Load.escalate) hx fun _ _ => rfl).trans
          (State.takeOnLoad_passed _ _ det _ hx _)
      · exact State.takeOnLoad_passed _ _ det _ hx s

end

end

end Sys2Proof.Machine

end

section
/-! PROOFS. With the header without pressure no arm is admitted, and the loss of pressure stops every participant (R148,
R149): O40. -/

namespace Sys2Proof.Machine

/-! ### Nobody joins a header without pressure -/

/-- An operation that leaves the pressure state, and with the header LOST the participants but for those that leave. -/
structure Shrinks (s t : State) : Prop where
  lost  : t.header.lost = s.header.lost
  parts : s.header.lost = true → ∀ b ∈ t.header.parts.map (·.arm), b ∈ s.header.parts.map (·.arm)

section
variable {a : ArmId} {s t u : State}

theorem Shrinks.of_header (h : t.header = s.header) : Shrinks s t := by
  constructor <;> rw [h]
  exact fun _ _ => id

theorem Shrinks.refl (s : State) : Shrinks s s := .of_header rfl

theorem Shrinks.trans (h : Shrinks s t) (g : Shrinks t u) : Shrinks s u :=
  ⟨g.lost.trans h.lost, fun e b hb => h.parts e b (g.parts (h.lost.trans e) b hb)⟩

theorem Shrinks.forAll {α : Type} {l : List α} {f : α → State → State} (h : ∀ y ∈ l, ∀ t, Shrinks t (f y t)) :
    Shrinks s (State.forAll l f s) :=
  State.forAll_keeps (P := Shrinks s) (.refl s) fun y hy t ht => ht.trans (h y hy t)

theorem State.modHead_shrinks (f : Load → Load) (s : State) : Shrinks s (s.modHead a f) := .of_header rfl

theorem State.modArm_shrinks (f : Arm → Arm) (s : State) : Shrinks s (s.modArm a f) := .of_header rfl

theorem State.attend_shrinks (x : Source) (s : State) : Shrinks s (s.attend x) := .of_header rfl

theorem State.recomputeGrants_shrinks (handing : Option ArmId) (s : State) : Shrinks s (s.recomputeGrants handing) :=
  ⟨(s.recomputeGrants_kept handing).pressure.2, fun _ b hb => by
    rwa [(s.recomputeGrants_sameMembers handing).arms] at hb⟩

theorem State.evaluateQueue_of_lost (h : s.header.lost = true) : s.evaluateQueue = s := by
  have hno : ∀ b, s.admissible b = false := fun b => by simp [State.admissible, h]
  unfold State.evaluateQueue
  cases s.header.queue.length with
  | zero => rfl
  | succ n =>
    unfold State.evaluateQueueFor
    split
    · rfl
    · rw [hno, if_neg Bool.false_ne_true]

theorem State.evaluateQueue_shrinks (s : State) : Shrinks s s.evaluateQueue :=
  ⟨s.evaluateQueue_kept.pressure.2, fun h b hb => by rwa [State.evaluateQueue_of_lost h] at hb⟩

theorem State.leaveHeader_shrinks (a : ArmId) (s : State) : Shrinks s (s.leaveHeader a) := by
  unfold State.leaveHeader
  refine Shrinks.trans (t := s.leaveParticipants a) ?_ ?_
  · unfold State.leaveParticipants
    split
    · have hdrop : Shrinks s (s.modHeader fun h => { h with parts := h.parts.filter fun p => p.arm != a }) := by
        refine ⟨rfl, fun _ b hb => ?_⟩
        obtain ⟨p, hp, e⟩ := List.mem_map.mp hb
        exact List.mem_map.mpr ⟨p, (List.mem_filter.mp hp).1, e⟩
      exact (hdrop.trans (State.recomputeGrants_shrinks none _)).trans (State.evaluateQueue_shrinks _)
    · exact .refl s
  · unfold State.leaveQueue
    split
    · have hdrop : Shrinks (s.leaveParticipants a)
          ((s.leaveParticipants a).modHeader fun h => { h with queue := h.queue.filter (· != a) }) := ⟨rfl, fun _ _ => id⟩
      dsimp only
      split
      · exact hdrop.trans (State.evaluateQueue_shrinks _)
      · exact hdrop
    · exact .refl _

theorem State.formSplit_shrinks (a : ArmId) (s : State) : Shrinks s (s.formSplit a) :=
  ⟨(State.formSplit_kept a s).pressure.2, fun _ b hb => by rwa [(s.formSplit_sameMembers a).arms] at hb⟩

theorem State.enterSettling_shrinks (a : ArmId) (how : Option PendingOutcome) (s : State) :
    Shrinks s (s.enterSettling a how) := by
  have hset : Shrinks s (s.settleEntered a how) :=
    ((State.modHead_shrinks _ s).trans (State.modArm_shrinks _ _)).trans (State.leaveHeader_shrinks a _)
  rw [State.enterSettling_eq]
  split
  · exact hset.trans (.of_header (State.cutStrokes_header a _))
  · exact hset.trans (.of_header (by rw [State.awaitFinal_rest]))

theorem State.enterEnding_shrinks (a : ArmId) (l : Load) (s : State) : Shrinks s (s.enterEnding a l) := by
  have hend : ∀ (f : FlowState → FlowState) (g : Load → Load),
      Shrinks s (State.leaveHeader a (State.modFlow a f (s.modHead a g))) := fun f g =>
    ((State.modHead_shrinks g s).trans (State.modArm_shrinks _ _)).trans (State.leaveHeader_shrinks a _)
  unfold State.enterEnding
  dsimp only
  split
  · exact (hend _ _).trans (State.enterSettling_shrinks a none _)
  · exact (hend _ _).trans ((State.formSplit_shrinks a _).trans (.of_header (State.testAllFiring_header a _)))

theorem State.actHold_shrinks (a : ArmId) (code : StopCode) (l : Load) (s : State) : Shrinks s (s.actHold a code l) := by
  have hleave : ∀ (f : Arm → Arm) (g : Load → Load),
      Shrinks s (State.leaveHeader a (State.modArm a f (s.modHead a g))) := fun f g =>
    ((State.modHead_shrinks g s).trans (State.modArm_shrinks f _)).trans (State.leaveHeader_shrinks a _)
  have hheld : Shrinks s (s.enterHeld a code) := (hleave _ _).trans (State.attend_shrinks _ _)
  unfold State.actHold
  cases l.state with
  | admitting =>
    dsimp only
    split
    · exact hleave _ _
    · exact hheld
  | flowing => exact hheld
  | held => exact State.modHead_shrinks _ s
  | ending => exact State.enterSettling_shrinks a _ s
  | settling | authorized | ended => exact .refl s

theorem State.actEnd_shrinks (a : ArmId) (l : Load) (s : State) : Shrinks s (s.actEnd a l) := by
  unfold State.actEnd
  cases l.state with
  | admitting | held => exact State.enterSettling_shrinks a _ s
  | flowing => exact State.enterEnding_shrinks a l s
  | ending | settling | authorized | ended => exact .refl s

theorem State.takeOnLoad_shrinks (a : ArmId) (code : StopCode) (cls : Cls) (det : Detail) (l : Load) (s : State) :
    Shrinks s (s.takeOnLoad a code cls det l) := by
  have hfill : Shrinks s ((s.modHead a (Load.keepDetail code det)).modHead a (Load.fillStop code cls det)) :=
    (State.modHead_shrinks _ s).trans (State.modHead_shrinks _ _)
  unfold State.takeOnLoad
  dsimp only
  split
  · exact (State.modHead_shrinks _ s).trans ((State.modHead_shrinks _ _).trans (State.attend_shrinks _ _))
  · cases cls with
    | hold => exact hfill.trans (State.actHold_shrinks a code l _)
    | endC => exact hfill.trans (State.actEnd_shrinks a l _)
    | note | trip => exact hfill

theorem State.laneTrip_shrinks (c : Cause) (det : Detail) (a : ArmId) (s : State) : Shrinks s (s.laneTrip c det a) := by
  have hact : ∀ u : State, Shrinks u (u.actTrip a) := fun u => by
    unfold State.actTrip
    split
    · exact .refl u
    · split
      · exact .of_header (State.cutStrokes_header a _)
      · exact State.enterSettling_shrinks a _ u
  unfold State.laneTrip
  refine Shrinks.trans (Shrinks.trans ?_ (hact _)) ((State.modArm_shrinks _ _).trans (State.attend_shrinks _ _))
  split
  · exact State.modHead_shrinks _ s
  · exact .refl s

theorem State.shutLane_shrinks (n : LaneId) (c : Cause) (s : State) : Shrinks s (s.shutLane n c) := by
  unfold State.shutLane
  split
  · exact .refl s
  · have hshut : Shrinks s (s.modLane n fun x => { x with shut := true, shutCause := some c }) := .of_header rfl
    exact (hshut.trans (Shrinks.forAll fun b _ u => State.modArm_shrinks _ u)).trans (State.attend_shrinks _ _)

theorem State.tripArm_shrinks (a : ArmId) (c : Cause) (det : Detail) (s : State) : Shrinks s (s.tripArm a c det) := by
  unfold State.tripArm
  dsimp only
  split
  · refine (State.laneTrip_shrinks c det a s).trans ?_
    unfold State.escalateLane
    split
    · exact .refl _
    · split
      · exact .refl _
      · rename_i n _ _
        have hfree : ∀ (xs : List ArmId) (u : State), Shrinks u (State.forAllFree xs (State.laneTrip c det) u) :=
          fun xs u => Shrinks.trans (t := { u with choices := u.choices + 1 }) (.of_header rfl)
            (Shrinks.forAll fun b _ v => State.laneTrip_shrinks c det b v)
        exact (State.shutLane_shrinks n c _).trans (hfree _ _)
  · exact State.laneTrip_shrinks c det a s

theorem State.takeCause_shrinks (a : ArmId) (code : StopCode) (det : Detail) (s : State) :
    Shrinks s (s.takeCause a code det) := by
  unfold State.takeCause
  dsimp only
  split
  · exact State.tripArm_shrinks a _ det s
  · split
    · exact .refl s
    · split
      · exact (State.modHead_shrinks _ s).trans (State.takeOnLoad_shrinks a _ _ det _ _)
      · exact State.takeOnLoad_shrinks a _ _ det _ s

theorem State.raisePressure_shrinks (a : ArmId) (s : State) : Shrinks s (s.raisePressure a) := by
  unfold State.raisePressure
  split
  · exact State.takeCause_shrinks a _ _ s
  · exact .refl s

theorem State.losePressure_shrinks (s : State) : Shrinks s s.losePressure :=
  (State.recomputeGrants_shrinks none s).trans (Shrinks.forAll fun b _ u => State.raisePressure_shrinks b u)

end

/-! ### Every participant is held (R149) -/

section
variable {a : ArmId} {l : Load}

/-- What HELD says of an arm outside the header stands while other arms are dealt with. -/
theorem heldBy_of_passed {c : Cause} {det : Detail} {s t : State} (h : heldBy c det a l s) (hk : Kept s t)
    (hp : Passed a s t) : heldBy c det a l t := by
  obtain ⟨⟨m, hm, hrec⟩, hvb, hve, hq, hpart, hwait, hflag⟩ := h
  have hout : s.outside a := ⟨State.waits_false.mp hwait, by simpa using State.participates_false.mp hpart⟩
  have harm := hp.apart hout
  obtain ⟨hpart', hwait', hhead⟩ := hp.participates hwait
  refine ⟨⟨m, hhead.trans hm, hrec⟩, ?_, ?_, ?_, hpart'.trans hpart, hwait', hk.flags _ hflag⟩
  · rwa [harm]
  · rwa [harm]
  · rwa [harm]

theorem State.raisePressure_eq (b : ArmId) (s : State) :
    s.raisePressure b = if s.participates b then s.takeCause b (.cause .headerPressure) .none else s := rfl

/-- The cause at another participant. -/
theorem State.raisePressure_passed {b : ArmId} {s : State} (hcls : s.causes[Cause.headerPressure.index] = .hold)
    (hb : a ≠ b) : Passed a s (s.raisePressure b) := by
  rw [State.raisePressure_eq]
  split
  · exact State.takeCause_passed .none (by rw [hcls]; decide) hb
  · exact .refl a s

theorem State.raisePressure_kept (b : ArmId) (s : State) : Kept s (s.raisePressure b) :=
  (State.raisePressure_sound b s).toKept

theorem State.raisePressure_heldBy {b : ArmId} {s : State} (hcls : s.causes[Cause.headerPressure.index] = .hold)
    (h : heldBy .headerPressure .none a l s) : heldBy .headerPressure .none a l (s.raisePressure b) := by
  by_cases hb : a = b
  · subst hb
    have hpart : s.participates a = false := by
      obtain ⟨-, -, -, -, hpart, -⟩ := h
      exact hpart
    rw [State.raisePressure_eq, hpart, if_neg Bool.false_ne_true]
    exact h
  · exact heldBy_of_passed h (State.raisePressure_kept b s) (State.raisePressure_passed hcls hb)

theorem State.forAll_raisePressure_heldBy (xs : List ArmId) {s : State}
    (hcls : s.causes[Cause.headerPressure.index] = .hold) (h : heldBy .headerPressure .none a l s) :
    heldBy .headerPressure .none a l (State.forAll xs State.raisePressure s) := by
  induction xs generalizing s with
  | nil => exact h
  | cons b xs ih =>
    refine ih (s := s.raisePressure b) ?_ (State.raisePressure_heldBy hcls h)
    rw [(State.raisePressure_kept b s).causes]
    exact hcls

/-- A participant whose load flows is held at its turn, and until then the turns of others leave it. -/
theorem State.forAll_raisePressure_holds {xs : List ArmId} {s : State} (ha : a ∈ xs)
    (hcls : s.causes[Cause.headerPressure.index] = .hold) (hl : s.head a = some l) (hst : l.state = .flowing)
    (hesc : notEscalated (s.defn a) l) (hp : s.participates a = true) (hw : s.waits a = false) :
    heldBy .headerPressure .none a l (State.forAll xs State.raisePressure s) := by
  induction xs generalizing s with
  | nil => cases ha
  | cons b xs ih =>
    have hcls' : (s.raisePressure b).causes[Cause.headerPressure.index] = .hold := by
      rw [(State.raisePressure_kept b s).causes]
      exact hcls
    by_cases hb : a = b
    · subst hb
      refine State.forAll_raisePressure_heldBy xs (s := s.raisePressure a) hcls' ?_
      rw [State.raisePressure_eq, if_pos hp]
      exact (State.takeCause_heldBy .none hcls hl hst hesc hw).1
    · have hpass := State.raisePressure_passed (s := s) (b := b) hcls hb
      obtain ⟨hp', hw', hhead⟩ := hpass.participates hw
      refine ih (s := s.raisePressure b) ((List.mem_cons.mp ha).resolve_left hb) hcls' (hhead.trans hl) ?_
        (hp'.trans hp) hw'
      rw [State.defn, hpass.defn]
      exact hesc

end

/-! ### The pressure input (R148) -/

/-- The header with the level and the state of its pressure input. -/
def Header.pressed (level : Contact) (lost : Bool) (h : Header) : Header := { h with input := level, lost := lost }

theorem State.takePressure_same {s : State} {level : Contact}
    (h : s.header.lost = pressureLost s.header.pressureUsed level) :
    s.takePressure level = s.modHeader fun h => { h with input := level } := by
  have hsame : (s.modHeader fun x => { x with input := level, lost := pressureLost s.header.pressureUsed level }) =
      s.modHeader fun x => { x with input := level } := by
    rw [← h]
    rfl
  unfold State.takePressure
  dsimp only
  split
  · rename_i hin
    rw [← hin]
    rfl
  · rw [if_pos (by simp [h]), hsame]

theorem State.takePressure_lost {s : State} (hused : s.header.pressureUsed = true) (hin : s.header.input = .closed)
    (hlost : s.header.lost = false) :
    s.takePressure .opened = (s.modHeader (Header.pressed .opened true)).losePressure := by
  simp only [State.takePressure, hin, hused, hlost, pressureLost]
  rfl

theorem State.takePressure_present {s : State} (hused : s.header.pressureUsed = true) (hin : s.header.input = .opened)
    (hlost : s.header.lost = true) :
    s.takePressure .closed = (s.modHeader (Header.pressed .closed false)).regainPressure := by
  simp only [State.takePressure, hin, hused, hlost, pressureLost]
  rfl

theorem State.recomputeGrants_of_empty {s : State} (h : s.header.parts = []) : s.recomputeGrants none = s := by
  have hfill : fillGrants s.header.effCap [] = [] := rfl
  simp only [State.recomputeGrants, h, hfill]
  exact congrArg (fun p => { s with header := { s.header with parts := p } }) h.symm

theorem effCap_of_lost {h : Header} (e : h.lost = true) : h.effCap = 0 := if_pos e

/-- With no capacity every grant is 0. -/
theorem State.grant_of_lost {s : State} (h : s.grantsOk) (hlost : s.header.lost = true) :
    ∀ p ∈ s.header.parts, p.grant = 0 := by
  intro p hp
  obtain ⟨-, hsum⟩ := h
  rw [effCap_of_lost hlost, Nat.le_zero, List.sum_eq_zero_iff] at hsum
  exact hsum _ (List.mem_map_of_mem hp)

/-- Settles O40: the loss takes the capacity away, raises the cause at each participant in turn and admits nobody. -/
theorem pressureGovernsTheHeader : Obligations.PressureGovernsTheHeader := by
  intro s hp
  refine ⟨fun level h => (event_powered hp).trans (congrArg _ (State.takePressure_same h)),
    fun hused hin hlost => ?_, fun hused hin hlost => ?_⟩
  · have htake := State.takePressure_lost hused hin hlost
    have hgrants := (s.modHeader (Header.pressed .opened true)).losePressure_grants
    have hshrinks := (s.modHeader (Header.pressed .opened true)).losePressure_shrinks
    have hkept := (s.modHeader (Header.pressed .opened true)).losePressure_kept
    have hheld : s.causes[Cause.headerPressure.index] = .hold → ∀ a l, s.participates a = true →
        s.head a = some l → l.state = .flowing → notEscalated (s.defn a) l → s.waits a = false →
        heldBy .headerPressure .none a l (s.modHeader (Header.pressed .opened true)).losePressure := by
      intro hcls a l hpart hl hst hesc hw
      have hpass : Passed a s ((s.modHeader (Header.pressed .opened true)).recomputeGrants none) :=
        (Passed.of_same (s := s) (t := s.modHeader (Header.pressed .opened true)) rfl rfl rfl ⟨rfl, rfl⟩).trans
          (State.recomputeGrants_passed none _)
      obtain ⟨hpart', hw', hhead⟩ := hpass.participates hw
      refine State.forAll_raisePressure_holds ?_ ?_ (hhead.trans hl) hst ?_ (hpart'.trans hpart) hw'
      · simpa [State.participates, Header.pressed] using hpart
      · rw [(State.recomputeGrants_kept none _).causes]
        exact hcls
      · rw [State.defn, hpass.defn]
        exact hesc
    generalize (s.modHeader (Header.pressed .opened true)).losePressure = t at htake hgrants hshrinks hkept hheld
    have hgone : t.header.lost = true := hshrinks.lost
    refine ⟨t, (event_powered hp).trans (congrArg _ htake), hkept.pressure.1, hgone, effCap_of_lost hgone,
      State.grant_of_lost hgrants hgone, fun a ha => ?_, hkept.capacity, hheld⟩
    have hmem := hshrinks.parts rfl a (by simpa [State.participates] using ha)
    simpa [State.participates, State.modHeader_header, Header.pressed] using hmem
  · have htake := State.takePressure_present hused hin hlost
    have hkept : Kept (s.modHeader (Header.pressed .closed false))
        (s.modHeader (Header.pressed .closed false)).regainPressure := State.regainPressure_kept _
    have hempty : s.header.parts = [] → s.header.queue = [] →
        (s.modHeader (Header.pressed .closed false)).regainPressure = s.modHeader (Header.pressed .closed false) := by
      intro hparts hqueue
      rw [State.regainPressure, State.recomputeGrants_of_empty (s := s.modHeader (Header.pressed .closed false)) hparts]
      exact State.evaluateQueue_of_empty hqueue
    generalize (s.modHeader (Header.pressed .closed false)).regainPressure = t at htake hkept hempty
    have hback : t.header.lost = false := hkept.pressure.2
    have hcap : t.header.effCap = t.header.cap := if_neg (by simp [hback])
    exact ⟨t, (event_powered hp).trans (congrArg _ htake), hkept.pressure.1, hback,
      hcap.trans (congrArg Prod.fst hkept.capacity), hempty⟩

end Sys2Proof.Machine

end

section
/-! PROOFS. A lane is shut and its arms are tripped one after the other (R61, R173, R193, R195, R196), with the statement
about the emergency stop (O44). -/

namespace Sys2Proof.Machine

/-! ### A header that a run of trips takes apart -/

/-- Nobody waits twice or both waits and participates, and a load outside ADMITTING to ENDING is not in the header. -/
structure State.Fit (s : State) : Prop where
  nodup : s.header.queue.Nodup
  once  : ∀ b ∈ s.header.queue, b ∉ s.header.parts.map (·.arm)
  away  : ∀ b, s.headIs b LoadState.preSettling = false → s.outside b

theorem State.Fit.of_headerOk {s : State} (h : s.headerOk) : s.Fit := by
  obtain ⟨hqueue, hparts, hnodup, -⟩ := h
  have hwait : ∀ b ∈ s.header.queue, s.headIs b LoadState.preSettling = true := fun b hb => by
    have hb' := hqueue b hb
    unfold State.headIs at hb' ⊢
    cases hl : s.head b with
    | none => simp [hl] at hb'
    | some l =>
      have hst : l.state = .admitting := by simpa [hl] using hb'
      simp [hst, LoadState.preSettling]
  have hflow : ∀ b ∈ s.header.parts.map (·.arm), (s.head b).any Load.inBody = true := fun b hb => by
    obtain ⟨p, hp, rfl⟩ := List.mem_map.mp hb
    exact hparts p hp
  refine ⟨hnodup, fun b hq hp => ?_, fun b hb => ⟨fun hq => ?_, fun hp => ?_⟩⟩
  · have h1 := hqueue b hq
    have h2 := hflow b hp
    cases hl : s.head b with
    | none => simp [hl] at h2
    | some l =>
      have hst : l.state = .admitting := by simpa [State.headIs, hl] using h1
      simp [hl, Load.inBody, hst] at h2
  · rw [hwait b hq] at hb
    cases hb
  · have h2 := hflow b hp
    cases hl : s.head b with
    | none => simp [hl] at h2
    | some l =>
      have hst : l.state = .flowing := by
        simp only [hl, Option.any_some, Load.inBody, Bool.and_eq_true, beq_iff_eq] at h2
        exact h2.1
      simp [State.headIs, hl, hst, LoadState.preSettling] at hb

/-- The members of the header as a cascade or an arm that leaves can change them. -/
def Header.ordered (h : Header) : Prop := h.queue.Nodup ∧ ∀ b ∈ h.queue, b ∉ h.parts.map (·.arm)

theorem SameMembers.ordered {s t : State} (h : SameMembers s t) (ho : s.header.ordered) : t.header.ordered := by
  unfold Header.ordered
  rw [h.queue, h.arms]
  exact ho

theorem State.evaluateQueue_ordered {s : State} (h : s.header.ordered) : s.evaluateQueue.header.ordered := by
  obtain ⟨hnodup, honce⟩ := h
  obtain ⟨k, hqueue, hparts⟩ := State.evaluateQueueFor_members s.header.queue.length s
  refine ⟨?_, fun b hb hp => ?_⟩
  · rw [State.evaluateQueue, hqueue]
    exact hnodup.sublist (List.drop_sublist k _)
  · rw [State.evaluateQueue, hqueue] at hb
    rw [State.evaluateQueue, hparts, List.mem_append] at hp
    rcases hp with hp | hp
    · exact honce b (List.mem_of_mem_drop hb) hp
    · rw [← List.take_append_drop k s.header.queue, List.nodup_append] at hnodup
      exact hnodup.2.2 b hp b hb rfl

theorem State.leaveHeader_ordered {s : State} (a : ArmId) (h : s.header.ordered) : (s.leaveHeader a).header.ordered := by
  have hparts : (s.leaveParticipants a).header.ordered := by
    unfold State.leaveParticipants
    split
    · refine State.evaluateQueue_ordered ((State.recomputeGrants_sameMembers none _).ordered ⟨h.1, fun b hb hp => ?_⟩)
      obtain ⟨p, hp, e⟩ := List.mem_map.mp hp
      exact h.2 b hb (List.mem_map.mpr ⟨p, (List.mem_filter.mp hp).1, e⟩)
    · exact h
  have hdrop : ((s.leaveParticipants a).modHeader fun h => { h with queue := h.queue.filter (· != a) }).header.ordered :=
    ⟨hparts.1.filter _, fun b hb => hparts.2 b (List.mem_filter.mp hb).1⟩
  unfold State.leaveHeader State.leaveQueue
  split
  · dsimp only
    split
    · exact State.evaluateQueue_ordered hdrop
    · exact hdrop
  · exact hparts

theorem State.Fit.ordered {s : State} (h : s.Fit) : s.header.ordered := ⟨h.nodup, h.once⟩

/-- An arm of a fit header does not both wait and participate. -/
theorem State.Fit.either {s : State} (h : s.Fit) (a : ArmId) : s.waits a = false ∨ s.participates a = false := by
  by_cases hq : a ∈ s.header.queue
  · right
    have hp := h.once a hq
    exact State.participates_false.mpr (by simpa using hp)
  · exact .inl (State.waits_false.mpr hq)

/-! ### One trip -/

theorem State.actTrip_passed {b x : ArmId} (hx : b ≠ x) (s : State) : Passed b s (s.actTrip x) := by
  unfold State.actTrip
  split
  · exact .refl b s
  · split
    · exact (State.modHead_passed (f := fun l => { l with pendingOut := some .tripped }) hx fun _ _ => rfl).trans
        ((State.forAll_passed fun _ _ _ => State.modInjector_passed _ _ _).trans (State.modArm_passed _ hx))
    · exact State.enterSettling_passed _ hx s

/-- A trip at another arm. -/
theorem State.laneTrip_passed {b x : ArmId} (c : Cause) (det : Detail) (hx : b ≠ x) (s : State) :
    Passed b s (s.laneTrip c det x) := by
  unfold State.laneTrip
  refine Passed.trans (Passed.trans ?_ (State.actTrip_passed hx _))
    ((State.modArm_passed _ hx).trans (State.attend_passed _ _))
  split
  · exact State.modHead_passed hx fun l _ => by rw [Load.fillStop_eq]
  · exact .refl b s

/-- What the stray volume of an arm and its watch say (R64, R65). -/
def Arm.stray (x : Arm) : Nat × Nat × Nat × Watch × Option ArmDef :=
  (x.strayBase, x.strayEth, x.strayVol, x.leakWatch, x.defn)

/-- What holds of an arm that a lane trip has been taken at. -/
structure Tripped (c : Cause) (det : Detail) (x : ArmId) (s t : State) : Prop where
  locked  : (t.arm x).locked = true
  record  : (t.arm x).lockRecord = if (s.arm x).locked then (s.arm x).lockRecord else some (c, det)
  stray   : (t.arm x).stray = (s.arm x).stray
  lanes   : t.lanes = s.lanes
  outside : t.outside x
  stopped : t.headIs x LoadState.preSettling = false
  settled : ∀ l, s.head x = some l → l.state.inProgress = true →
    ∃ m, t.head x = some m ∧ m.number = l.number ∧ m.state = .settling ∧ m.pendingOut = some .tripped ∧ m.adds = l.adds

theorem State.lockArm_tripped {s u : State} {x : ArmId} (c : Cause) (det : Detail) (hlock : (u.arm x).locked = (s.arm x).locked)
    (hrecord : (u.arm x).lockRecord = (s.arm x).lockRecord) (hstray : (u.arm x).stray = (s.arm x).stray)
    (hlanes : u.lanes = s.lanes) (hout : u.outside x) (hstop : u.headIs x LoadState.preSettling = false)
    (hset : ∀ l, s.head x = some l → l.state.inProgress = true → ∃ m, u.head x = some m ∧ m.number = l.number ∧
      m.state = .settling ∧ m.pendingOut = some .tripped ∧ m.adds = l.adds) :
    Tripped c det x s (u.lockArm x c det) := by
  have harm : (u.lockArm x c det).arm x = (u.arm x).lock c det := by
    rw [State.lockArm_eq, State.attend_arm, State.modArm_arm_same]
  refine ⟨?_, ?_, ?_, hlanes, hout, hstop, hset⟩
  · rw [harm, Arm.lock_locked]
  · rw [harm, Arm.lock_record, hlock, hrecord]
  · rw [harm, ← hstray]
    unfold Arm.lock
    split <;> rfl

theorem State.laneTrip_tripped {s : State} {x : ArmId} (c : Cause) (det : Detail) (h : s.Fit) :
    Tripped c det x s (s.laneTrip c det x) := by
  cases hl : s.head x with
  | none =>
    have hno : s.headIs x LoadState.preSettling = false := by simp [State.headIs, hl]
    have hrun : s.running x = none := by simp [State.running, hl]
    rw [State.laneTrip_idle c det hrun]
    exact State.lockArm_tripped c det rfl rfl rfl rfl (h.away x hno) hno fun l e => by rw [hl] at e; cases e
  | some l =>
    cases hpre : l.state.preSettling with
    | true =>
      obtain ⟨hhead, harm, hout, hapart⟩ := State.withdrawn_spec (f := Load.trippedBy c det) (g := Arm.startSettle)
        (fun _ => Load.trippedBy_keeps c det) (fun _ => ⟨rfl, rfl⟩) hl (h.either x)
      rw [State.laneTrip_running c det hl hpre]
      have hcut : ((s.withdrawn x (Load.trippedBy c det) Arm.startSettle).cutStrokes x).arm x =
          (s.arm x).startSettle.tripStage := by
        rw [State.cutStrokes_arm, if_pos rfl, harm]
      have hread := (State.cutStrokes_head x x _).trans hhead
      refine State.lockArm_tripped c det (by rw [hcut]; rfl) (by rw [hcut]; rfl) (by rw [hcut]; rfl) ?_ ?_ ?_ ?_
      · rw [State.cutStrokes_rest]
        exact hapart.lanes
      · rw [State.outside, State.cutStrokes_header]
        exact hout
      · rw [State.headIs_of_head hread, Load.trippedBy_eq]
        rfl
      · intro k hk _
        rw [hl] at hk
        cases hk
        refine ⟨_, hread, ?_⟩
        rw [Load.trippedBy_eq]
        exact ⟨rfl, rfl, rfl, rfl⟩
    | false =>
      have hno : s.headIs x LoadState.preSettling = false := by rw [State.headIs_of_head hl, hpre]
      have hout := h.away x hno
      by_cases hst : l.state = .settling
      · rw [State.laneTrip_settling c det hl hst]
        have hcut : ((s.modHead x (Load.trippedAgain c det)).cutStrokes x).arm x = (s.arm x).tripStage := by
          rw [State.cutStrokes_arm, if_pos rfl, State.modHead_arm]
        have hread : ((s.modHead x (Load.trippedAgain c det)).cutStrokes x).head x = some (l.trippedAgain c det) := by
          rw [State.cutStrokes_head, State.modHead_head fun _ => Load.trippedAgain_keeps c det, if_pos rfl, hl,
            Option.map_some]
        have hrec : (l.trippedAgain c det).number = l.number ∧ (l.trippedAgain c det).state = .settling ∧
            (l.trippedAgain c det).pendingOut = some .tripped ∧ (l.trippedAgain c det).adds = l.adds := by
          unfold Load.trippedAgain
          rw [Load.fillStop_eq]
          exact ⟨rfl, hst, rfl, rfl⟩
        refine State.lockArm_tripped c det (by rw [hcut]; rfl) (by rw [hcut]; rfl) (by rw [hcut]; rfl) ?_ ?_ ?_ ?_
        · rw [State.cutStrokes_rest]
          rfl
        · rw [State.outside, State.cutStrokes_header]
          exact hout
        · rw [State.headIs_of_head hread, hrec.2.1]
          rfl
        · intro k hk _
          rw [hl] at hk
          cases hk
          exact ⟨_, hread, hrec⟩
      · have hidle : l.state.inProgress = false := by
          revert hpre hst
          cases l.state <;> decide
        have hrun : s.running x = none := by simp [State.running_of_head hl, hidle]
        rw [State.laneTrip_idle c det hrun]
        refine State.lockArm_tripped c det rfl rfl rfl rfl hout hno fun k hk hp => ?_
        rw [hl] at hk
        cases hk
        rw [hidle] at hp
        cases hp

/-- A trip leaves the header fit for the next. -/
theorem State.laneTrip_fit {s : State} (c : Cause) (det : Detail) (x : ArmId) (h : s.Fit) : (s.laneTrip c det x).Fit := by
  have hordered : (s.laneTrip c det x).header.ordered := by
    cases hl : s.head x with
    | none =>
      rw [State.laneTrip_idle c det (by simp [State.running, hl])]
      exact h.ordered
    | some l =>
      cases hpre : l.state.preSettling with
      | true =>
        rw [State.laneTrip_running c det hl hpre, State.lockArm_eq, State.attend_header, State.modArm_header,
          State.cutStrokes_header]
        exact State.leaveHeader_ordered x h.ordered
      | false =>
        by_cases hst : l.state = .settling
        · rw [State.laneTrip_settling c det hl hst, State.lockArm_eq, State.attend_header, State.modArm_header,
            State.cutStrokes_header]
          exact h.ordered
        · have hidle : l.state.inProgress = false := by
            revert hpre hst
            cases l.state <;> decide
          rw [State.laneTrip_idle c det (by simp [State.running_of_head hl, hidle])]
          exact h.ordered
  refine ⟨hordered.1, hordered.2, fun b hb => ?_⟩
  by_cases hx : b = x
  · rw [hx]
    exact (State.laneTrip_tripped c det h).outside
  · have hpass := State.laneTrip_passed c det hx s
    refine hpass.outside (h.away b ?_)
    cases hl : s.head b with
    | none => simp [State.headIs, hl]
    | some l =>
      obtain ⟨m, hm, hmoved⟩ := hpass.heads l hl
      rw [State.headIs_of_head hm] at hb
      rw [State.headIs_of_head hl]
      rcases hmoved.state with e | e
      · rwa [e] at hb
      · rw [e] at hb
        cases hb

/-! ### A run of trips -/

/-- A trip at an arm that trips at others have left, no stroke begun. -/
theorem Passed.tripped {c : Cause} {det : Detail} {x : ArmId} {s u t : State} (h : Passed x s u)
    (hbar : s.strokesBarred x = true) (g : Tripped c det x u t) : Tripped c det x s t := by
  have hrecord : (u.arm x).lockRecord = (s.arm x).lockRecord := (congrArg Arm.lockRecord h.arm :)
  have hstray : (u.arm x).stray = (s.arm x).stray := (congrArg Arm.stray h.arm :)
  refine ⟨g.locked, ?_, g.stray.trans hstray, g.lanes.trans h.lanes, g.outside, g.stopped, fun l hl hrun => ?_⟩
  · rw [g.record, h.locked, hrecord]
  · obtain ⟨m, hm, hmoved⟩ := h.heads l hl
    have hmrun : m.state.inProgress = true := by
      rcases hmoved.state with e | e
      · rwa [e]
      · rw [e]
        rfl
    obtain ⟨k, hk, hnum, hst, hpend, hadds⟩ := g.settled m hm hmrun
    have hnumber : m.number = l.number := (congrArg Load.number hmoved.still :)
    exact ⟨k, hk, hnum.trans hnumber, hst, hpend, hadds.trans (hmoved.adds hbar)⟩

/-- A tripped arm is left as it is by trips at others. -/
theorem Tripped.passed {c : Cause} {det : Detail} {x : ArmId} {s u t : State} (h : Tripped c det x s u)
    (g : Passed x u t) : Tripped c det x s t := by
  obtain ⟨-, -, hhead⟩ := g.stays h.outside.1
  have harm := g.apart h.outside
  refine ⟨by rw [harm, h.locked], by rw [harm, h.record], by rw [harm, h.stray], g.lanes.trans h.lanes,
    g.outside h.outside, ?_, fun l hl hrun => ?_⟩
  · rw [State.headIs, hhead]
    exact h.stopped
  · rw [hhead]
    exact h.settled l hl hrun

/-- A run of trips over arms at which no stroke may begin: each arm of it is tripped, every other is passed. -/
theorem State.forAll_laneTrip {c : Cause} {det : Detail} {xs : List ArmId} {s : State} (hn : xs.Nodup) (h : s.Fit)
    (hbar : ∀ b ∈ xs, s.strokesBarred b = true) :
    (∀ b ∈ xs, Tripped c det b s (State.forAll xs (State.laneTrip c det) s)) ∧
      ∀ b, b ∉ xs → Passed b s (State.forAll xs (State.laneTrip c det) s) := by
  induction xs generalizing s with
  | nil => exact ⟨fun b hb => absurd hb List.not_mem_nil, fun b _ => .refl b s⟩
  | cons x xs ih =>
    obtain ⟨hx, hn⟩ := List.nodup_cons.mp hn
    have hpass : ∀ b, b ≠ x → Passed b s (s.laneTrip c det x) := fun b hb => State.laneTrip_passed c det hb s
    obtain ⟨htrips, hrest⟩ := ih (s := s.laneTrip c det x) hn (State.laneTrip_fit c det x h) fun b hb => by
      rw [(hpass b fun e => hx (e ▸ hb)).strokesBarred]
      exact hbar b (List.mem_cons_of_mem x hb)
    rw [State.forAll_cons]
    refine ⟨fun b hb => ?_, fun b hb => ?_⟩
    · by_cases e : b = x
      · subst e
        exact (State.laneTrip_tripped c det h).passed (hrest b hx)
      · exact (hpass b e).tripped (hbar b hb) (htrips b ((List.mem_cons.mp hb).resolve_left e))
    · exact (hpass b fun e => hb (e ▸ List.mem_cons_self)).trans (hrest b fun e => hb (List.mem_cons_of_mem x e))

/-! ### The lane is shut (R61, R66) -/

theorem State.shutLane_arm (n : LaneId) (c : Cause) (s : State) (b : ArmId) :
    (s.shutLane n c).arm b =
      if s.laneOf b = some n ∧ (s.lane n).shut = false then (s.arm b).zeroStray else s.arm b := by
  unfold State.shutLane
  split
  · rename_i h
    simp [h]
  · rename_i h
    rw [State.attend_arm]
    refine (forAll_modArm_arm Arm.zeroStray (s.laneArms_nodup n) _ b).trans ?_
    simp [State.mem_laneArms, h]

theorem State.shutLane_rest (n : LaneId) (c : Cause) (s : State) :
    (s.shutLane n c).loads = s.loads ∧ (s.shutLane n c).header = s.header ∧
      (s.shutLane n c).injectors = s.injectors := by
  rw [(s.shutLane_read n c).same]
  exact ⟨rfl, rfl, rfl⟩

theorem State.Fit.congr {s t : State} (h : s.Fit) (hl : t.loads = s.loads) (hh : t.header = s.header) : t.Fit := by
  refine ⟨by rw [hh]; exact h.nodup, by rw [hh]; exact h.once, fun b hb => ?_⟩
  have hout := h.away b (by rw [State.headIs, ← State.head_congr hl b]; exact hb)
  rw [State.outside, hh]
  exact hout

theorem State.strokesBarred_of_shut {s : State} {b : ArmId} {n : LaneId} (hb : s.laneOf b = some n)
    (hs : (s.lane n).shut = true) : s.strokesBarred b = true := by
  simp [State.strokesBarred, State.armLaneShut, hb, hs]

theorem State.shutLane_shut (n : LaneId) (c : Cause) (s : State) : ((s.shutLane n c).lane n).shut = true := by
  rw [State.shutLane_lane]
  cases h : (s.lane n).shut <;> simp [h]

/-- What a run of trips over arms of a lane that has been shut leaves. -/
structure LaneTripped (c : Cause) (det : Detail) (n : LaneId) (xs : List ArmId) (s t : State) : Prop where
  lane    : t.lane n = if (s.lane n).shut then s.lane n else { s.lane n with shut := true, shutCause := some c }
  lanes   : ∀ k, k ≠ n → t.lane k = s.lane k
  flagged : (s.lane n).shut = false → t.attention.pending[Source.laneShut.index] = true
  tripped : ∀ b ∈ xs, Tripped c det b (s.shutLane n c) t
  passed  : ∀ b, b ∉ xs → Passed b (s.shutLane n c) t

theorem State.tripLane {c : Cause} {det : Detail} {n : LaneId} {xs : List ArmId} {s : State} (h : s.Fit)
    (hn : xs.Nodup) (hxs : ∀ b ∈ xs, s.laneOf b = some n) :
    LaneTripped c det n xs s (State.forAllFree xs (State.laneTrip c det) (s.shutLane n c)) := by
  obtain ⟨hloads, hheader, -⟩ := s.shutLane_rest n c
  have hfit : { s.shutLane n c with choices := (s.shutLane n c).choices + 1 }.Fit := h.congr hloads hheader
  have hbar : ∀ b ∈ xs, { s.shutLane n c with choices := (s.shutLane n c).choices + 1 }.strokesBarred b = true := by
    intro b hb
    refine State.strokesBarred_of_shut (n := n) (((s.shutLane_read n c).laneOf b).trans (hxs b hb)) ?_
    exact s.shutLane_shut n c
  obtain ⟨htrips, hrest⟩ := State.forAll_laneTrip (c := c) (det := det)
    (s := { s.shutLane n c with choices := (s.shutLane n c).choices + 1 }) (xs := freeOrder (s.shutLane n c).choices xs)
    ((freeOrder_perm _ xs).nodup_iff.mpr hn) hfit fun b hb => hbar b (mem_freeOrder.mp hb)
  have hkept : Kept (s.shutLane n c) (State.forAllFree xs (State.laneTrip c det) (s.shutLane n c)) :=
    State.forAllFree_kept fun b _ t => State.laneTrip_kept c det b t
  have hlanes : (State.forAllFree xs (State.laneTrip c det) (s.shutLane n c)).lanes = (s.shutLane n c).lanes :=
    State.forAll_keeps (P := fun t => t.lanes = (s.shutLane n c).lanes) rfl fun b _ t ht => by
      obtain ⟨y, hy⟩ := exists_ne b
      exact (State.laneTrip_passed c det hy t).lanes.trans ht
  refine ⟨?_, fun k hk => ?_, fun hs => ?_, fun b hb => ?_, fun b hb => ?_⟩
  · rw [State.lane_congr hlanes, State.shutLane_lane]
    cases (s.lane n).shut <;> simp
  · rw [State.lane_congr hlanes, State.shutLane_lane, if_neg fun e => hk e.1]
  · refine hkept.flags _ ?_
    unfold State.shutLane
    rw [if_neg (by simp [hs])]
    exact State.attend_pending_same _ _
  · obtain ⟨h1, h2, h3, h4, h5, h6, h7⟩ := htrips b (mem_freeOrder.mpr hb)
    exact ⟨h1, h2, h3, h4, h5, h6, h7⟩
  · obtain ⟨h1, h2, h3, h4, h5⟩ := hrest b fun e => hb (mem_freeOrder.mp e)
    exact ⟨h1, h2, h3, h4, h5⟩

/-- Settles O44: the lane is shut, then each of its arms takes a trip. -/
theorem emergencyStopShutsTheLane : Obligations.EmergencyStopShutsTheLane := by
  intro n s hp hok hemergency
  have htake : s.takeEmergency n = State.emergencyTrip n (s.modLane n fun x => { x with emergency := true }) := by
    rw [State.takeEmergency, hemergency, if_neg Bool.false_ne_true]
  have hfit : (s.modLane n fun x => { x with emergency := true }).Fit := (State.Fit.of_headerOk hok).congr rfl rfl
  have hlane : (s.modLane n fun x => { x with emergency := true }).lane n = { s.lane n with emergency := true } := by
    rw [State.modLane_lane, if_pos rfl]
  have hrest : ∀ k, k ≠ n → (s.modLane n fun x => { x with emergency := true }).lane k = s.lane k := fun k hk => by
    rw [State.modLane_lane, if_neg hk]
  have harm : ∀ b, (s.modLane n fun x => { x with emergency := true }).arm b = s.arm b := fun _ => rfl
  have hof : ∀ b, (s.modLane n fun x => { x with emergency := true }).laneOf b = s.laneOf b := fun _ => rfl
  have hhead : ∀ b, (s.modLane n fun x => { x with emergency := true }).head b = s.head b := fun _ => rfl
  generalize (s.modLane n fun x => { x with emergency := true }) = u at htake hfit hlane hrest harm hof hhead
  have hshut : (u.lane n).shut = (s.lane n).shut := by rw [hlane]
  have hlock : ∀ b, ((u.shutLane n .emergencyStop).arm b).locked = (s.arm b).locked ∧
      ((u.shutLane n .emergencyStop).arm b).lockRecord = (s.arm b).lockRecord := fun b => by
    rw [State.shutLane_arm, harm]
    split <;> exact ⟨rfl, rfl⟩
  obtain ⟨hown, hlanes, hflag, htripped, hpassed⟩ := State.tripLane (c := .emergencyStop) (det := .lane n) hfit
    (u.laneArms_nodup n) fun b hb => State.mem_laneArms.mp hb
  rw [State.emergencyTrip] at htake
  generalize State.forAllFree (u.laneArms n) (State.laneTrip .emergencyStop (.lane n)) (u.shutLane n .emergencyStop) = t
    at htake hown hlanes hflag htripped hpassed
  have hmember : ∀ a, s.laneOf a = some n → a ∈ u.laneArms n := fun a ha => State.mem_laneArms.mpr ((hof a).trans ha)
  rw [hlane] at hown
  refine ⟨t, (event_powered hp).trans (congrArg _ htake), ?_, ?_, fun hs => ⟨?_, hflag (hshut.trans hs), fun a ha => ?_⟩,
    fun hs => ?_, fun k hk => (hlanes k hk).trans (hrest k hk), fun a ha => ?_, fun a ha => ?_⟩
  · rw [hown]
    split <;> rfl
  · rw [hown]
    split
    · assumption
    · rfl
  · rw [hown, if_neg (by simp [hs])]
  · have hstray := (htripped a (hmember a ha)).stray
    rw [State.shutLane_arm, if_pos ⟨(hof a).trans ha, hshut.trans hs⟩] at hstray
    exact congrArg (fun p => p.2.2.1) hstray
  · rw [hown, if_pos hs]
  · obtain ⟨hlocked, hrecord, -, -, -, hstopped, hsettled⟩ := htripped a (hmember a ha)
    refine ⟨hlocked, ?_, hstopped, fun l hl hrun => hsettled l ?_ hrun⟩
    · rw [hrecord, (hlock a).1, (hlock a).2]
    · exact (State.head_congr (u.shutLane_rest n .emergencyStop).1 a).trans ((hhead a).trans hl)
  · have hnot : a ∉ u.laneArms n := fun e => ha ((hof a).symm.trans (State.mem_laneArms.mp e))
    exact (hpassed a hnot).locked.trans (hlock a).1

end Sys2Proof.Machine

end

section
/-! PROOFS. A stray volume above the leak allowance (R64, R65, R194, R196): O30 and O28. -/

namespace Sys2Proof.Machine

/-! ### LEAK_BY at an arm with no load in progress (R194, R196) -/

theorem State.modArm_of_same {s : State} {a : ArmId} {f : Arm → Arm} (h : f (s.arm a) = s.arm a) :
    s.modArm a f = s := by
  have hset : s.arms.set a (f (s.arms[a])) = s.arms := by
    rw [show f s.arms[a] = s.arms[a] from h]
    exact Vector.set_getElem_self _
  unfold State.modArm
  exact congrArg (fun x => { s with arms := x }) hset

theorem Passed.lockRecord {b : ArmId} {s t : State} (h : Passed b s t) :
    (t.arm b).lockRecord = (s.arm b).lockRecord := (congrArg Arm.lockRecord h.arm :)

theorem Passed.stray {b : ArmId} {s t : State} (h : Passed b s t) : (t.arm b).stray = (s.arm b).stray :=
  (congrArg Arm.stray h.arm :)

section
variable {s : State} {a : ArmId} {c : Cause} {det : Detail}

/-- A TRIP at an arm that is not LOCKED and has no load in progress. -/
theorem State.tripArm_locks (hrun : s.running a = none) (hlock : (s.arm a).locked = false) :
    s.tripArm a c det = State.attend .armLocked (s.modArm a fun x =>
      { x with locked := true, lockRecord := some (c, det) }) := by
  rw [State.tripArm_unlocked hlock, State.laneTrip_idle c det hrun, State.lockArm_eq]
  exact congrArg (State.attend .armLocked) (State.modArm_congr (by rw [Arm.lock, hlock, if_neg Bool.false_ne_true]))

theorem State.lockArm_of_locked (hlock : (s.arm a).locked = true) : s.lockArm a c det = s.attend .armLocked := by
  rw [State.lockArm_eq, State.modArm_of_same (by rw [Arm.lock, if_pos hlock])]

/-- A TRIP at an arm that is LOCKED and has no load in progress. -/
theorem State.tripArm_locked (hrun : s.running a = none) (hlock : (s.arm a).locked = true) :
    s.tripArm a c det = (s.attend .armLocked).escalateLane a c det := by
  simp only [State.tripArm, hlock, if_true, State.laneTrip_idle c det hrun, State.lockArm_of_locked hlock]

theorem State.escalateLane_of_shut {n : LaneId} (hn : s.laneOf a = some n) (hs : (s.lane n).shut = true) :
    s.escalateLane a c det = s := by
  simp [State.escalateLane, hn, hs]

theorem State.escalateLane_of_open {n : LaneId} (hn : s.laneOf a = some n) (hs : (s.lane n).shut = false) :
    s.escalateLane a c det =
      State.forAllFree ((s.laneArms n).filter (· != a)) (State.laneTrip c det) (s.shutLane n c) := by
  simp [State.escalateLane, hn, hs]

/-- The lane of a LOCKED arm with no load in progress is shut, and every other arm of it tripped. -/
theorem State.tripArm_laneShutBy {n : LaneId} (h : s.Fit) (hrun : s.headIs a LoadState.inProgress = false)
    (hlock : (s.arm a).locked = true) (hn : s.laneOf a = some n) (hs : (s.lane n).shut = false) :
    laneShutBy c det a n s (s.tripArm a c det) := by
  have hrunning : s.running a = none := by
    rw [← Option.not_isSome_iff_eq_none, State.running_isSome, hrun]
    simp
  have hkept : Kept (s.attend .armLocked) (s.tripArm a c det) := by
    rw [State.tripArm_locked hrunning hlock]
    exact (State.escalateLane_sound a c det _).toKept
  have hxs : ((s.attend .armLocked).laneArms n).filter (· != a) = (s.laneArms n).filter (· != a) := rfl
  have htrip : s.tripArm a c det = State.forAllFree ((s.laneArms n).filter (· != a)) (State.laneTrip c det)
      ((s.attend .armLocked).shutLane n c) := by
    rw [State.tripArm_locked hrunning hlock, State.escalateLane_of_open (s := s.attend .armLocked) hn hs, hxs]
  have hmem : ∀ b, b ∈ (s.laneArms n).filter (· != a) ↔ b ≠ a ∧ s.laneOf b = some n := fun b => by
    rw [List.mem_filter, State.mem_laneArms, bne_iff_ne, and_comm]
  obtain ⟨hown, hlanes, hflag, htripped, hpassed⟩ := State.tripLane (c := c) (det := det) (n := n)
    (xs := (s.laneArms n).filter (· != a)) (s := s.attend .armLocked) (h.congr rfl rfl)
    ((s.laneArms_nodup n).filter _) fun b hb => ((hmem b).mp hb).2
  rw [← htrip] at hown hlanes hflag htripped hpassed
  generalize s.tripArm a c det = t at hkept hown hlanes hflag htripped hpassed
  have harm : ∀ b, ((s.attend .armLocked).shutLane n c).arm b =
      if s.laneOf b = some n then (s.arm b).zeroStray else s.arm b := fun b => by
    rw [State.shutLane_arm]
    simp [hs, State.laneOf]
  have hlocked : ∀ b, (((s.attend .armLocked).shutLane n c).arm b).locked = (s.arm b).locked ∧
      (((s.attend .armLocked).shutLane n c).arm b).lockRecord = (s.arm b).lockRecord := fun b => by
    rw [harm]
    split <;> exact ⟨rfl, rfl⟩
  have hhead : ∀ b, ((s.attend .armLocked).shutLane n c).head b = s.head b := fun b =>
    State.head_congr (State.shutLane_rest n c (s.attend .armLocked)).1 b
  have hout : ((s.attend .armLocked).shutLane n c).outside a := by
    rw [State.outside, (State.shutLane_rest n c (s.attend .armLocked)).2.1]
    refine h.away a ?_
    unfold State.headIs at hrun ⊢
    cases hl : s.head a with
    | none => rfl
    | some l =>
      rw [hl] at hrun
      revert hrun
      simp only [Option.any_some]
      cases l.state <;> decide
  have hself := hpassed a fun e => ((hmem a).mp e).1 rfl
  have hstray : ∀ b, s.laneOf b = some n → (t.arm b).stray = ((s.arm b).zeroStray).stray := fun b hb => by
    have hset : (((s.attend .armLocked).shutLane n c).arm b).stray = ((s.arm b).zeroStray).stray := by
      rw [harm, if_pos hb]
    by_cases e : b = a
    · subst e
      exact hself.stray.trans hset
    · exact (htripped b ((hmem b).mpr ⟨e, hb⟩)).stray.trans hset
  refine ⟨?_, hlanes, hflag hs, hkept.flags _ (State.attend_pending_same _ s), ?_, ?_, ?_, fun b hb => ?_,
    fun b hne hb => ?_, fun b hb => ?_⟩
  · rw [hown]
    exact if_neg (by simp [hs])
  · rw [hself.locked, (hlocked a).1, hlock]
  · exact hself.lockRecord.trans (hlocked a).2
  · exact (hself.stays hout.1).2.2.trans (hhead a)
  · have e := hstray b hb
    simp only [Arm.stray, Prod.mk.injEq] at e
    exact ⟨e.1, e.2.1, e.2.2.1, e.2.2.2.1⟩
  · obtain ⟨h1, h2, -, -, -, h3, h4⟩ := htripped b ((hmem b).mpr ⟨hne, hb⟩)
    refine ⟨h1, ?_, h3, fun l hl hr => h4 l ((hhead b).trans hl) hr⟩
    rw [h2, (hlocked b).1, (hlocked b).2]
  · have hpass := hpassed b fun e => hb ((hmem b).mp e).2
    exact ⟨hpass.locked.trans (hlocked b).1, hpass.lockRecord.trans (hlocked b).2⟩

end

/-! ### The watch (R65) -/

/-- An arm whose leak watch has been raised. -/
def Arm.alarm (x : Arm) : Arm := { x with leakWatch := .raised }

theorem State.watchLeak_raises {s : State} {a : ArmId} (m : MeterId) (hw : (s.arm a).leakWatch = .armed)
    (hv : (s.defn a).leak * 1000 < (s.arm a).strayVol) (hcls : s.causes[Cause.leakBy.index] = .trip) :
    s.watchLeak a m = (s.modArm a Arm.alarm).tripArm a .leakBy (.meter m) := by
  rw [← State.takeCause_trip (.meter m) (s := s.modArm a Arm.alarm) hcls]
  unfold State.watchLeak
  dsimp only
  rw [if_pos (by simp [hw, hv])]
  rfl

/-- `laneShutBy` reads the lanes, the records, the locks and the definitions of the state before alone. -/
theorem laneShutBy_congr {c : Cause} {det : Detail} {a : ArmId} {n : LaneId} {s u t : State}
    (h : laneShutBy c det a n u t) (hl : u.loads = s.loads) (hn : u.lanes = s.lanes)
    (ha : ∀ b, (u.arm b).locked = (s.arm b).locked ∧ (u.arm b).lockRecord = (s.arm b).lockRecord ∧
      (u.arm b).defn = (s.arm b).defn) : laneShutBy c det a n s t := by
  have hlane : ∀ k, u.lane k = s.lane k := State.lane_congr hn
  have hhead : ∀ b, u.head b = s.head b := State.head_congr hl
  have hof : ∀ b, u.laneOf b = s.laneOf b := fun b => by rw [State.laneOf, (ha b).2.2, ← State.laneOf]
  unfold laneShutBy at h ⊢
  simpa only [hlane, hhead, hof, fun b => (ha b).1, fun b => (ha b).2.1] using h

/-- An arm at which LEAK_BY has been raised. -/
def Arm.leaked (m : MeterId) (x : Arm) : Arm :=
  { x with leakWatch := .raised, locked := true, lockRecord := some (.leakBy, .meter m) }

section
variable {s : State} {a : ArmId} {m : MeterId} (hrun : s.running a = none) (hw : (s.arm a).leakWatch = .armed)
  (hv : (s.defn a).leak * 1000 < (s.arm a).strayVol) (hcls : s.causes[Cause.leakBy.index] = .trip)

include hrun hw hv hcls

/-- LEAK_BY locks an arm that is not LOCKED. -/
theorem State.watchLeak_locks (hlock : (s.arm a).locked = false) :
    s.watchLeak a m = State.attend .armLocked (s.modArm a (Arm.leaked m)) := by
  have hopen : ((s.modArm a Arm.alarm).arm a).locked = false := by rw [State.modArm_arm_same]; exact hlock
  rw [State.watchLeak_raises m hw hv hcls, State.tripArm_locks (s := s.modArm a Arm.alarm) hrun hopen,
    State.modArm_modArm]
  rfl

/-- LEAK_BY at a LOCKED arm whose lane is SHUT. -/
theorem State.watchLeak_stands {n : LaneId} (hlock : (s.arm a).locked = true) (hn : s.laneOf a = some n)
    (hs : (s.lane n).shut = true) : s.watchLeak a m = State.attend .armLocked (s.modArm a Arm.alarm) := by
  have hlocked : ((s.modArm a Arm.alarm).arm a).locked = true := by rw [State.modArm_arm_same]; exact hlock
  have hof : (State.attend .armLocked (s.modArm a Arm.alarm)).laneOf a = some n := by
    rw [State.laneOf, State.attend_arm, State.modArm_arm_same]
    exact hn
  rw [State.watchLeak_raises m hw hv hcls, State.tripArm_locked (s := s.modArm a Arm.alarm) hrun hlocked,
    State.escalateLane_of_shut hof hs]

/-- LEAK_BY at a LOCKED arm whose lane is NORMAL. -/
theorem State.watchLeak_shuts {n : LaneId} (h : s.Fit) (hlock : (s.arm a).locked = true) (hn : s.laneOf a = some n)
    (hs : (s.lane n).shut = false) : laneShutBy .leakBy (.meter m) a n s (s.watchLeak a m) := by
  have harm : ∀ b, (s.modArm a Arm.alarm).arm b = if b = a then (s.arm b).alarm else s.arm b := fun b =>
    State.modArm_arm a b Arm.alarm s
  have hsame : ∀ b, ((s.modArm a Arm.alarm).arm b).locked = (s.arm b).locked ∧
      ((s.modArm a Arm.alarm).arm b).lockRecord = (s.arm b).lockRecord ∧
      ((s.modArm a Arm.alarm).arm b).defn = (s.arm b).defn := fun b => by
    rw [harm]
    split <;> exact ⟨rfl, rfl, rfl⟩
  have hof : (s.modArm a Arm.alarm).laneOf a = some n := by
    rw [State.laneOf, (hsame a).2.2]
    exact hn
  have hidle : (s.modArm a Arm.alarm).headIs a LoadState.inProgress = false := by
    rw [← State.running_isSome]
    exact Option.isSome_eq_false_iff.mpr (Option.isNone_iff_eq_none.mpr hrun)
  rw [State.watchLeak_raises m hw hv hcls]
  exact laneShutBy_congr (State.tripArm_laneShutBy (h.congr rfl rfl) hidle ((hsame a).1.trans hlock) hof hs) rfl rfl
    hsame

end

theorem Watch.ne_raised {w : Watch} (h : w ≠ .raised) : w = .armed := by
  cases w with
  | armed => rfl
  | raised => exact absurd rfl h

/-- Settles O30: the stray volume is worked out, then the watch raises LEAK_BY or does not. -/
theorem leakLocksTheArm : Obligations.LeakLocksTheArm := by
  intro m a r s hp hb hidle hcls x d volume base eth stray pulsed
  obtain ⟨e, he, hrole⟩ := State.meterBinding_some hb
  have hd : s.defn a = e := by simp [State.defn, he]
  have hof : s.laneOf a = some d.lane := by
    change s.laneOf a = some (s.defn a).lane
    rw [hd, State.laneOf, he]
    rfl
  have hpulsed : Arm.strayed r (s.modMeter m Meter.pulse).strayVolume (s.arm a) = pulsed := by
    have hvol := State.strayed_volume m he base eth
    have hstray : (s.modMeter m Meter.pulse).strayVolume { s.arm a with strayBase := base, strayEth := eth } = stray := by
      rw [hvol]
      change _ = min 4294967295 (volume (s.defn a).baseMeter base + match (s.defn a).ethMeter with
        | none => 0
        | some e => volume e eth)
      rw [hd] <;> rfl
    exact congrArg (fun v => { s.arm a with strayBase := base, strayEth := eth, strayVol := v }) hstray
  have hrun : s.running a = none := by
    rw [← Option.not_isSome_iff_eq_none, State.running_isSome, hidle]
    simp
  have htake := State.takePulse_idle hb hidle
  have harm : ((s.modMeter m Meter.pulse).modArm a (Arm.strayed r (s.modMeter m Meter.pulse).strayVolume)).arm a =
      pulsed := (State.modArm_arm_same a _ _).trans hpulsed
  have hothers : ∀ b, b ≠ a → ((s.modMeter m Meter.pulse).modArm a
      (Arm.strayed r (s.modMeter m Meter.pulse).strayVolume)).arm b = s.arm b := fun b hb => State.modArm_arm_ne hb _ _
  have hsame : ∀ u : State, u = (s.modMeter m Meter.pulse).modArm a
      (Arm.strayed r (s.modMeter m Meter.pulse).strayVolume) → u.loads = s.loads ∧ u.lanes = s.lanes ∧
        u.header = s.header ∧ u.injectors = s.injectors ∧ u.attention = s.attention ∧ u.causes = s.causes := by
    rintro u rfl
    exact ⟨rfl, rfl, rfl, rfl, rfl, rfl⟩
  generalize hu : (s.modMeter m Meter.pulse).modArm a (Arm.strayed r (s.modMeter m Meter.pulse).strayVolume) = u
    at htake harm hothers
  obtain ⟨hloads, hlanes, hheader, hinj, hatt, hcauses⟩ := hsame u hu.symm
  clear hsame hu
  have hdefn : u.defn a = d := by
    rw [State.defn, harm]
    rfl
  have huof : u.laneOf a = some d.lane := by
    rw [State.laneOf, harm]
    exact hof
  have hulane : ∀ n, u.lane n = s.lane n := State.lane_congr hlanes
  have hurun : u.running a = none := (State.running_congr hloads a).trans hrun
  have hucls : u.causes[Cause.leakBy.index] = .trip := by
    rw [hcauses]
    exact hcls
  have hquiet : stray ≤ d.leak * 1000 ∨ x.leakWatch = .raised → u.watchLeak a m = u := fun h => by
    refine State.watchLeak_quiet m ?_
    rw [harm, hdefn]
    exact h
  have hraise : ∀ {p : Prop}, d.leak * 1000 < stray → x.leakWatch = .armed →
      ((u.arm a).leakWatch = .armed → (u.defn a).leak * 1000 < (u.arm a).strayVol → p) → p := fun hv hw k => by
    refine k ?_ ?_
    · rw [harm]
      exact hw
    · rw [harm, hdefn]
      exact hv
  have hlocks : d.leak * 1000 < stray → x.leakWatch = .armed → x.locked = false →
      u.watchLeak a m = State.attend .armLocked (u.modArm a (Arm.leaked m)) := fun hv hw hlock =>
    hraise hv hw fun h1 h2 => State.watchLeak_locks hurun h1 h2 hucls (by rw [harm]; exact hlock)
  have hstands : d.leak * 1000 < stray → x.leakWatch = .armed → x.locked = true → (s.lane d.lane).shut = true →
      u.watchLeak a m = State.attend .armLocked (u.modArm a Arm.alarm) := fun hv hw hlock hs =>
    hraise hv hw fun h1 h2 => State.watchLeak_stands hurun h1 h2 hucls (by rw [harm]; exact hlock) huof
      (by rw [hulane]; exact hs)
  refine ⟨u.watchLeak a m, (event_powered hp).trans (congrArg _ htake), fun h => ?_, fun hv hw hlock => ?_,
    fun hv hw hlock hs => ?_, fun h => ?_, fun hv hw hlock hs hok => ?_⟩
  · rw [hquiet h]
    exact ⟨harm, hatt⟩
  · rw [hlocks hv hw hlock]
    refine ⟨?_, State.attend_pending_same _ _⟩
    rw [State.attend_arm, State.modArm_arm_same, harm]
    rfl
  · rw [hstands hv hw hlock hs]
    refine ⟨?_, State.attend_pending_same _ _⟩
    rw [State.attend_arm, State.modArm_arm_same, harm]
    rfl
  · have hframe : ∀ f : Arm → Arm, u.watchLeak a m = State.attend .armLocked (u.modArm a f) →
        (u.watchLeak a m).loads = s.loads ∧ (u.watchLeak a m).lanes = s.lanes ∧ (u.watchLeak a m).header = s.header ∧
          (u.watchLeak a m).injectors = s.injectors ∧ ∀ b, b ≠ a → (u.watchLeak a m).arm b = s.arm b := fun f hf => by
      rw [hf]
      exact ⟨hloads, hlanes, hheader, hinj, fun b hb => (State.modArm_arm_ne hb f u).trans (hothers b hb)⟩
    by_cases hq : stray ≤ d.leak * 1000 ∨ x.leakWatch = .raised
    · rw [hquiet hq]
      exact ⟨hloads, hlanes, hheader, hinj, hothers⟩
    · rw [not_or, not_le] at hq
      obtain ⟨hv, hnot⟩ := hq
      have hw := Watch.ne_raised hnot
      cases hlock : x.locked with
      | false => exact hframe _ (hlocks hv hw hlock)
      | true =>
        refine hframe _ (hstands hv hw hlock ?_)
        rcases h with h | h | h | h
        · omega
        · exact absurd h hnot
        · rw [hlock] at h
          cases h
        · exact h
  · have hfit : u.Fit := (State.Fit.of_headerOk hok).congr hloads hheader
    refine laneShutBy_congr (hraise hv hw fun h1 h2 => State.watchLeak_shuts hurun h1 h2 hucls hfit
      (by rw [harm]; exact hlock) huof (by rw [hulane]; exact hs)) hloads hlanes fun b => ?_
    by_cases hb : b = a
    · rw [hb, harm]
      exact ⟨rfl, rfl, rfl⟩
    · rw [hothers b hb]
      exact ⟨rfl, rfl, rfl⟩

end Sys2Proof.Machine

end

section
/-! PROOFS. A SET_METER in whole (R68, R69, R77, R90): O28. -/

namespace Sys2Proof.Machine

theorem MeterArgs.changesFactor_eq (q : MeterArgs) (m : Meter) :
    q.changesFactor m = ((q.k.getD m.k != m.k) || (q.mf.getD m.mf != m.mf)) := by
  rw [MeterArgs.changesFactor, changes_eq, changes_eq]

theorem MeterArgs.metrological_eq (q : MeterArgs) (m : Meter) :
    q.metrological m = (q.changesFactor m || (q.beta.getD m.beta != m.beta)) := by
  rw [MeterArgs.metrological, changes_eq]

/-- The state in which a SET_METER has been written and its effects on a bound arm are still to be worked out. -/
def State.meterWritten (q : MeterArgs) (s : State) : State :=
  let s1 := s.modMeter q.meter (Meter.write q)
  if q.metrological (s.meter q.meter) then s1.countMetrology else s1

theorem State.meterWritten_eq (q : MeterArgs) (s : State) :
    s.meterWritten q =
      { s with
        metrology := if q.metrological (s.meter q.meter) then min 65535 (s.metrology + 1) else s.metrology
        meters := s.meters.set q.meter ((s.meter q.meter).write q) } := by
  unfold State.meterWritten
  dsimp only
  split <;> rfl

theorem setMeterAccept_eq (q : MeterArgs) (s : State) :
    setMeterAccept q s =
      if q.changesFactor (s.meter q.meter) then (s.meterWritten q).applyFactor q.meter else s.meterWritten q := rfl

/-- R68(a) on one record. -/
def Load.refactored (a : ArmId) (m : Meter) (r : Role) (l : Load) : Load :=
  if l.arm == a && l.state == .authorized then l.regross m r else l

theorem Load.refactored_stage (a : ArmId) (m : Meter) (r : Role) (l : Load) :
    (l.refactored a m r).arm = l.arm ∧ (l.refactored a m r).state = l.state := by
  unfold Load.refactored Load.regross
  split
  · split
    · exact ⟨rfl, rfl⟩
    · cases r <;> exact ⟨rfl, rfl⟩
  · exact ⟨rfl, rfl⟩

theorem Load.refactored_eq (a : ArmId) (m : Meter) (r : Role) (l : Load) :
    l.refactored a m r =
      if l.arm = a ∧ l.state = .authorized ∧ (l.account r).pulses ≠ 0 then
        let gross := min 4294967295 ((l.account r).pulses * 100 * m.mf / m.k)
        match r with
        | .base => { l with base := { l.base with gross := gross }, v := min 4294967295 (gross + l.eth.gross) }
        | .ethanol => { l with eth := { l.eth with gross := gross }, v := min 4294967295 (l.base.gross + gross) }
      else l := by
  unfold Load.refactored Load.regross
  by_cases h : l.arm = a ∧ l.state = .authorized
  · obtain ⟨harm, hst⟩ := h
    rw [if_pos (by simp [harm, hst])]
    by_cases hp : (l.account r).pulses = 0
    · rw [if_pos hp, if_neg (by simp [hp])]
    · rw [if_neg hp, if_pos ⟨harm, hst, hp⟩]
      cases r <;> simp only [Load.modAccount, Load.account, sat, volumeMax, pulseVolume, min_comm]
  · rw [if_neg (by simpa using h), if_neg fun e => h ⟨e.1, e.2.1⟩]

/-- The state in which the records of a bound arm have been worked out anew (R68). -/
def State.refactored (s : State) (a : ArmId) (m : MeterId) (r : Role) : State :=
  { s with loads := s.loads.map (Load.refactored a (s.meter m) r) }

theorem State.refactored_head (s : State) (a : ArmId) (m : MeterId) (r : Role) (b : ArmId) :
    (s.refactored a m r).head b = (s.head b).map (Load.refactored a (s.meter m) r) := by
  have hp : (fun x : Load => x.arm == b && x.state != .ended) ∘ Load.refactored a (s.meter m) r =
      fun x : Load => x.arm == b && x.state != .ended := by
    funext x
    obtain ⟨harm, hst⟩ := Load.refactored_stage a (s.meter m) r x
    simp only [Function.comp_apply, harm, hst]
  rw [State.head, State.refactored, List.find?_map, hp, State.head]

theorem State.refactored_headIs (s : State) (a : ArmId) (m : MeterId) (r : Role) (b : ArmId) (p : LoadState → Bool) :
    (s.refactored a m r).headIs b p = s.headIs b p := by
  unfold State.headIs
  rw [State.refactored_head]
  cases s.head b with
  | none => rfl
  | some l => simp [(Load.refactored_stage a (s.meter m) r l).2]

theorem State.Fit.of_heads {s t : State} (h : s.Fit) (hh : t.header = s.header)
    (hp : ∀ b, t.headIs b LoadState.preSettling = s.headIs b LoadState.preSettling) : t.Fit := by
  refine ⟨by rw [hh]; exact h.nodup, by rw [hh]; exact h.once, fun b hb => ?_⟩
  rw [State.outside, hh]
  exact h.away b ((hp b).symm.trans hb)

theorem State.applyFactor_bound {s : State} {m : MeterId} {a : ArmId} {r : Role} (hb : s.meterBinding m = some (a, r)) :
    s.applyFactor m = State.watchLeak a m ((s.refactored a m r).modArm a fun x =>
      { x with strayVol := s.strayVolume x }) := by
  rw [State.applyFactor, hb]
  rfl

theorem Meter.write_eq (q : MeterArgs) (m : Meter) :
    m.write q =
      { m with
        k := q.k.getD m.k, mf := q.mf.getD m.mf, beta := q.beta.getD m.beta
        tDepth := q.tDepth.getD m.tDepth, qDepth := q.qDepth.getD m.qDepth
        tHist := if q.tDepth.getD m.tDepth = m.tDepth then m.tHist else []
        qHist := if q.qDepth.getD m.qDepth = m.qDepth then m.qHist else []
        residue := if (q.k.getD m.k != m.k) || (q.mf.getD m.mf != m.mf) then 0 else m.residue } := by
  have hhist : ∀ (new : Option Nat) (old : Nat) (h : List Nat),
      (if changes new old then [] else h) = if new.getD old = old then h else [] := fun new old h => by
    rw [changes_eq]
    by_cases e : new.getD old = old <;> simp [e]
  have hthist : ∀ (new : Option Nat) (old : Nat) (h : List Int),
      (if changes new old then [] else h) = if new.getD old = old then h else [] := fun new old h => by
    rw [changes_eq]
    by_cases e : new.getD old = old <;> simp [e]
  rw [Meter.write, MeterArgs.changesFactor_eq, hthist, hhist]

theorem setMeterRefusal_of {q : MeterArgs} {s : State} (h : q.metrological (s.meter q.meter) = false ∨
    (s.calibration = .closed ∧ ∀ a r, s.meterBinding q.meter = some (a, r) → s.headIs a LoadState.inProgress = false)) :
    setMeterRefusal q s = none := by
  unfold setMeterRefusal metrologyRefusal
  rcases h with h | ⟨hcal, hidle⟩
  · rw [h, if_neg Bool.false_ne_true]
  · have hfree : s.boundInUse ((s.meterBinding q.meter).map (·.1)) = false := by
      cases hb : s.meterBinding q.meter with
      | none => rfl
      | some p => simp [State.boundInUse, State.running_isSome, hidle p.1 p.2 hb]
    split
    · simp [firstFailure, hcal, hfree]
    · rfl

/-- Settles O28: the channel is written, then a bound arm is worked out anew and its leak watched. -/
theorem setMeterWritesTheChannel : Obligations.SetMeterWritesTheChannel := by
  intro f q s hs hq m factor metro count written answer settled hallow
  have hfac : q.changesFactor m = factor := MeterArgs.changesFactor_eq q m
  have hmetro : q.metrological m = metro := by rw [MeterArgs.metrological_eq, hfac]
  have hwritten : s.meterWritten q = settled := by
    rw [State.meterWritten_eq, show q.metrological (s.meter q.meter) = metro from hmetro, Meter.write_eq]
  have hrefuse : setMeterRefusal q s = none :=
    setMeterRefusal_of (by rw [show q.metrological (s.meter q.meter) = metro from hmetro]; exact hallow)
  have hanswer : ∀ t : State, t.metrology = count → setMeterAnswer q s t = answer := fun t ht => by
    rw [setMeterAnswer, show q.metrological (s.meter q.meter) = metro from hmetro, channelAnswer, ht]
    rfl
  have hexec : ∀ t, setMeterAccept q s = t → t.metrology = count → exec (.setMeter f) s = .next (s.answered t answer) :=
    fun t ht hc => (request_accepted hs hq hrefuse).trans (by rw [ht, hanswer t hc])
  have haccept : setMeterAccept q s = if factor then settled.applyFactor q.meter else settled := by
    rw [setMeterAccept_eq, show q.changesFactor (s.meter q.meter) = factor from hfac, hwritten]
  refine ⟨fun h => hexec settled ?_ rfl, ?_⟩
  · rw [haccept]
    split
    · rename_i hf
      have hb : settled.meterBinding q.meter = none := h.resolve_left (by simp [hf])
      rw [State.applyFactor, hb]
    · rfl
  · intro a r hf hb x d volume stray regrossed after y
    obtain ⟨e, he, -⟩ := State.meterBinding_some hb
    have hd : s.defn a = e := by simp [State.defn, he]
    have hidle : s.headIs a LoadState.inProgress = false := by
      rcases hallow with h | ⟨-, h⟩
      · simp [metro, hf] at h
      · exact h a r hb
    have hloads : s.loads.map (Load.refactored a (settled.meter q.meter) r) = s.loads.map regrossed := by
      refine List.map_congr_left fun l _ => (Load.refactored_eq a _ r l).trans ?_
      cases r <;> rfl
    have hstray : settled.strayVolume x = stray := by
      rw [State.strayVolume_of_defn (s := settled) (x := x) he]
      change _ = min 4294967295 (volume (s.defn a).baseMeter x.strayBase + match (s.defn a).ethMeter with
        | none => 0
        | some e => volume e x.strayEth)
      rw [hd] <;> rfl
    have hwatch : setMeterAccept q s = State.watchLeak a q.meter (after y) := by
      rw [haccept, if_pos hf, State.applyFactor_bound (s := settled) hb]
      refine congrArg (State.watchLeak a q.meter) ?_
      have hset : (settled.refactored a q.meter r).modArm a (fun x => { x with strayVol := settled.strayVolume x }) =
          { settled with
            loads := s.loads.map (Load.refactored a (settled.meter q.meter) r)
            arms := s.arms.set a { x with strayVol := settled.strayVolume x } } := rfl
      rw [hset, hloads, hstray]
    have harm : (after y).arm a = y :=
      State.modArm_arm_same a (fun _ => y) (settled.refactored a q.meter r)
    have hset : ∀ g : Arm → Arm, (after y).modArm a g = after (g y) := fun g =>
      State.modArm_modArm { settled with loads := s.loads.map regrossed } a (fun _ => y) g
    have hheads : ∀ b p, (after y).headIs b p = s.headIs b p := fun b p => by
      have hsame : (after y).head b = (settled.refactored a q.meter r).head b :=
        State.head_congr (by exact hloads.symm) b
      rw [State.headIs, hsame, ← State.headIs, State.refactored_headIs]
      rfl
    have hdefn : (after y).defn a = d := by
      rw [State.defn, harm]
      rfl
    have hof : (after y).laneOf a = some d.lane := by
      rw [State.laneOf, harm]
      change (s.arm a).defn.map _ = some (s.defn a).lane
      rw [he, hd]
      rfl
    have hlane : ∀ n, (after y).lane n = s.lane n := fun _ => rfl
    have hrun : (after y).running a = none := by
      rw [← Option.not_isSome_iff_eq_none, State.running_isSome]
      exact Bool.eq_false_iff.mp ((hheads a _).trans hidle)
    have hkept : Kept (after y) ((after y).watchLeak a q.meter) := (State.watchLeak_sound a q.meter (after y)).toKept
    refine ⟨fun h => hexec _ (hwatch.trans (State.watchLeak_quiet q.meter ?_)) rfl, fun hv hw hcls => ?_⟩
    · rw [harm, hdefn]
      exact h
    · have hw' : ((after y).arm a).leakWatch = .armed := by
        rw [harm]
        exact hw
      have hv' : ((after y).defn a).leak * 1000 < ((after y).arm a).strayVol := by
        rw [harm, hdefn]
        exact hv
      have hlock' : ((after y).arm a).locked = x.locked := by rw [harm]
      refine ⟨fun hlock => hexec _ ?_ rfl, fun hlock hshut => hexec _ ?_ rfl, fun hlock hopen hok => ?_⟩
      · rw [hwatch, State.watchLeak_locks hrun hw' hv' hcls (hlock'.trans hlock), hset]
        rfl
      · rw [hwatch, State.watchLeak_stands hrun hw' hv' hcls (hlock'.trans hlock) hof (by rw [hlane]; exact hshut), hset]
        rfl
      · have hfit : (after y).Fit := (State.Fit.of_headerOk hok).of_heads rfl fun b => hheads b _
        exact ⟨_, hexec _ hwatch hkept.metrology, hkept.meters, hkept.metrology,
          State.watchLeak_shuts hrun hw' hv' hcls hfit (hlock'.trans hlock) hof (by rw [hlane]; exact hopen)⟩

end Sys2Proof.Machine

end

section
/-! PROOFS. The steps of a close for a FLOWING load: its record, the profile, the lag (R104, R125, R166). -/

namespace Sys2Proof.Machine

/-! ### The head load is rewritten -/

/-- The table after operations on the head load of one arm, from record `l` to record `k`. -/
structure Rewritten (a : ArmId) (l k : Load) (s t : State) : Prop where
  before : s.head a = some l
  after  : t.head a = some k
  loads  : t.loads = updFirst (fun y => y.arm == a && y.state != .ended) (fun _ => k) s.loads

section
variable {a : ArmId} {l k j : Load} {s t u : State}

theorem Rewritten.of_loads (hl : s.head a = some l) (h : t.loads = s.loads) : Rewritten a l l s t :=
  ⟨hl, (State.head_congr h a).trans hl,
    h.trans (congrArg State.loads (State.modHead_of_same (f := fun _ => l) hl rfl)).symm⟩

theorem Rewritten.trans (h : Rewritten a l k s t) (g : Rewritten a k j t u) : Rewritten a l j s u := by
  refine ⟨h.before, g.after, ?_⟩
  obtain ⟨hk, hne⟩ : (k.arm == a) = true ∧ (k.state != .ended) = true := by
    simpa using List.find?_some h.after
  rw [g.loads, h.loads, updFirst_updFirst]
  intro x _ _
  rw [hk, hne]
  rfl

theorem State.modHead_rewritten {f : Load → Load} (hl : s.head a = some l)
    (hf : ∀ l, l.state ≠ .ended → (f l).arm = l.arm ∧ (f l).state ≠ .ended) :
    Rewritten a l (f l) s (s.modHead a f) := by
  refine ⟨hl, ?_, congrArg State.loads (State.modHead_congr (g := fun _ => f l) hl rfl)⟩
  rw [State.modHead_head hf, if_pos rfl, hl, Option.map_some]

end

/-! ### What a close leaves of the rest -/

/-- What the close of one arm's load leaves: everything but the records, the arms and demands of the header's members, and
the channels. -/
structure Aside (a : ArmId) (s t : State) : Prop where
  rest   : t = { s with
             loads := t.loads, arms := t.arms, injectors := t.injectors, attention := t.attention
             choices := t.choices, header := { s.header with parts := t.header.parts } }
  others : ∀ b, b ≠ a → s.participates b = false → t.arm b = s.arm b
  parts  : t.header.parts.map (·.arm) = s.header.parts.map (·.arm)

section
variable {a : ArmId} {s t u : State}

theorem participates_of_parts (h : t.header.parts.map (·.arm) = s.header.parts.map (·.arm)) (b : ArmId) :
    t.participates b = s.participates b := by
  have hany : ∀ v : State, v.participates b = (v.header.parts.map (·.arm)).any (· == b) := fun v => by
    rw [List.any_map]
    rfl
  rw [hany, hany, h]

theorem Aside.trans (h : Aside a s t) (g : Aside a t u) : Aside a s u where
  rest := by rw [g.rest, h.rest]
  others := fun b hb hp =>
    (g.others b hb ((participates_of_parts h.parts b).trans hp)).trans (h.others b hb hp)
  parts := g.parts.trans h.parts

/-- An operation on the records, the channels and the flags alone. -/
theorem Aside.of_rest (h : t = { s with
      loads := t.loads, injectors := t.injectors, attention := t.attention, choices := t.choices }) : Aside a s t := by
  refine ⟨?_, fun b _ _ => ?_, ?_⟩
  · rw [h]
  · rw [h]
    rfl
  · rw [h]

theorem State.modHead_aside (f : Load → Load) (s : State) : Aside a s (s.modHead a f) := .of_rest rfl

theorem State.modFlow_aside (f : FlowState → FlowState) (s : State) : Aside a s (s.modFlow a f) :=
  ⟨rfl, fun b hb _ => by rw [State.modFlow_arm, if_neg hb], rfl⟩

theorem SplitFormed.aside {l : Load} (h : SplitFormed a l s t) : Aside a s t :=
  ⟨by rw [h.rest], h.others, h.arms⟩

end

/-! ### The profile (R125) -/

/-- The steps taken: each of them holds, the next one does not, and the last one gives the limit and the rate. -/
theorem takeSteps_spec (preset v : Nat) (xs : List Step) (limit rate ptr : Nat) (taken : Bool) :
    ∃ k, (∀ i, i < k → ∃ p, xs[i]? = some p ∧ p.holds preset v = true) ∧
      (∀ p, xs[k]? = some p → p.holds preset v = false) ∧
      (k = 0 → takeSteps preset v xs (limit, rate, ptr, taken) = (limit, rate, ptr, taken)) ∧
      (0 < k → ∃ p, xs[k - 1]? = some p ∧
        takeSteps preset v xs (limit, rate, ptr, taken) = (p.limit, p.rate, ptr + k, true)) := by
  induction xs generalizing limit rate ptr taken with
  | nil =>
    exact ⟨0, fun i hi => absurd hi (Nat.not_lt_zero i), by simp, fun _ => rfl, fun h => absurd h (Nat.lt_irrefl 0)⟩
  | cons x xs ih =>
    cases hx : x.holds preset v with
    | false =>
      refine ⟨0, fun i hi => absurd hi (Nat.not_lt_zero i), fun p hp => ?_, fun _ => ?_, fun h => absurd h (Nat.lt_irrefl 0)⟩
      · rw [List.getElem?_cons_zero, Option.some.injEq] at hp
        rw [← hp, hx]
      · rw [takeSteps, hx, if_neg Bool.false_ne_true]
    | true =>
      obtain ⟨k, hholds, hstop, hzero, hpos⟩ := ih x.limit x.rate (ptr + 1) true
      have htake : takeSteps preset v (x :: xs) (limit, rate, ptr, taken) =
          takeSteps preset v xs (x.limit, x.rate, ptr + 1, true) := by
        rw [takeSteps, hx, if_pos rfl]
      refine ⟨k + 1, fun i hi => ?_, fun p hp => hstop p (by simpa using hp), fun h => absurd h (Nat.succ_ne_zero k), fun _ => ?_⟩
      · cases i with
        | zero => exact ⟨x, rfl, hx⟩
        | succ i =>
          obtain ⟨p, hp, hpx⟩ := hholds i (Nat.lt_of_succ_lt_succ hi)
          exact ⟨p, by simpa using hp, hpx⟩
      · rw [htake]
        cases k with
        | zero => exact ⟨x, rfl, hzero rfl⟩
        | succ k =>
          obtain ⟨p, hp, he⟩ := hpos (Nat.succ_pos k)
          exact ⟨p, by simpa using hp, by rw [he, Nat.add_right_comm, Nat.add_assoc]⟩

/-- A record at a step of its profile. -/
def Load.atStep (n : Nat) (l : Load) : Load := { l with step := n }

/-- The limit, the rate and the demand an evaluation of the profile leaves. -/
def FlowState.profiled (limit rate q : Nat) (f : FlowState) : FlowState :=
  { f with limit := limit, rate := rate, qDem := q }

/-- What an evaluation of the profile brings a FLOWING load with no restart volume left (R125, R127). -/
structure StepsTaken (profile : List Step) (preset v : Nat) (f : FlowState) (first n limit rate q : Nat) : Prop where
  le     : first ≤ n
  holds  : ∀ i, first ≤ i → i < n → ∃ p, profile[i - 1]? = some p ∧ p.holds preset v = true
  stops  : ∀ p, profile[n - 1]? = some p → p.holds preset v = false
  same   : n = first → limit = f.limit ∧ rate = f.rate
  last   : first < n → ∃ p, profile[n - 2]? = some p ∧ limit = p.limit ∧ rate = p.rate
  keeps  : n = first ∨ 0 < rate → q = f.qDem
  snaps  : first < n → rate = 0 → q = limit

theorem State.evalProfile_profiled {s : State} {a : ArmId} {l : Load} (hl : s.head a = some l)
    (hst : l.state = .flowing) (hleft : l.rstLeft = 0) (hstep : 1 ≤ l.step) :
    ∃ n limit rate q, s.evalProfile a =
        State.modFlow a (FlowState.profiled limit rate q) (s.modHead a (Load.atStep n)) ∧
      StepsTaken (s.recipeOf l).profile l.preset l.v (s.arm a).flow l.step n limit rate q := by
  obtain ⟨k, hholds, hstop, hzero, hpos⟩ := takeSteps_spec l.preset l.v ((s.recipeOf l).profile.drop (l.step - 1))
    (s.arm a).flow.limit (s.arm a).flow.rate l.step false
  simp only [List.getElem?_drop] at hholds hstop hpos
  rcases Nat.eq_zero_or_pos k with hk | hk
  · have htake := hzero hk
    refine ⟨l.step, (s.arm a).flow.limit, (s.arm a).flow.rate, (s.arm a).flow.qDem, ?_, le_refl _,
      fun i h1 h2 => by omega, fun p hp => hstop p (by rw [hk]; exact hp), fun _ => ⟨rfl, rfl⟩, fun h => by omega,
      fun _ => rfl, fun h => by omega⟩
    have hsame : State.modFlow a (FlowState.profiled (s.arm a).flow.limit (s.arm a).flow.rate (s.arm a).flow.qDem)
        (s.modHead a (Load.atStep l.step)) = s := by
      rw [State.modHead_of_same hl rfl]
      exact State.modArm_of_same rfl
    rw [hsame]
    unfold State.evalProfile
    rw [hl]
    dsimp only
    rw [htake]
    rfl
  · obtain ⟨p, hp, htake⟩ := hpos hk
    have hhead : (State.modFlow a (fun f => { f with limit := p.limit, rate := p.rate })
        (s.modHead a (Load.atStep (l.step + k)))).head a = some (l.atStep (l.step + k)) := by
      rw [State.modFlow_head]
      exact (State.modHead_rewritten (f := Load.atStep (l.step + k)) hl fun _ h => ⟨rfl, h⟩).after
    have heval : s.evalProfile a = State.snapDemand a (State.modFlow a (fun f => { f with limit := p.limit, rate := p.rate })
        (s.modHead a (Load.atStep (l.step + k)))) := by
      unfold State.evalProfile
      rw [hl]
      dsimp only
      rw [htake]
      rfl
    have harm : (State.modFlow a (fun f => { f with limit := p.limit, rate := p.rate })
        (s.modHead a (Load.atStep (l.step + k)))).arm a =
          { s.arm a with flow := { (s.arm a).flow with limit := p.limit, rate := p.rate } } := by
      rw [State.modFlow_arm, if_pos rfl, State.modHead_arm]
    refine ⟨l.step + k, p.limit, p.rate, if p.rate = 0 then p.limit else (s.arm a).flow.qDem, ?_, Nat.le_add_right _ _,
      fun i h1 h2 => ?_, fun x hx => hstop x ?_, fun h => by omega, fun _ => ⟨p, ?_, rfl, rfl⟩, fun h => ?_,
      fun _ h => if_pos h⟩
    · have hdel : (l.atStep (l.step + k)).state.delivers = true := by
        change l.state.delivers = true
        rw [hst]
        rfl
      have htarget : ∀ d, rampTarget d { (s.arm a).flow with limit := p.limit, rate := p.rate } (l.atStep (l.step + k)) =
          p.limit := fun d => by
        rw [rampTarget_eq, if_pos (show (l.atStep (l.step + k)).rstLeft = 0 from hleft),
          if_neg (by rw [show (l.atStep (l.step + k)).state = .flowing from hst]; simp)]
      rw [heval]
      simp only [State.snapDemand, hhead, hdel, harm, Bool.true_and, beq_iff_eq]
      by_cases hr : p.rate = 0
      · rw [if_pos hr, if_pos hr, State.modFlow, State.modFlow, State.modArm_modArm, State.modFlow]
        refine State.modArm_congr ?_
        dsimp only
        rw [State.modHead_arm, FlowState.profiled, htarget]
      · rw [if_neg hr, if_neg hr, State.modFlow, State.modFlow]
        refine State.modArm_congr ?_
        rw [State.modHead_arm]
        rfl
    · obtain ⟨x, hx, hxp⟩ := hholds (i - l.step) (by omega)
      refine ⟨x, ?_, hxp⟩
      rwa [show l.step - 1 + (i - l.step) = i - 1 by omega] at hx
    · rwa [show l.step - 1 + k = l.step + k - 1 by omega]
    · rwa [show l.step - 1 + (k - 1) = l.step + k - 2 by omega] at hp
    · rw [if_neg]
      rcases h with h | h <;> omega

end Sys2Proof.Machine

end

section
/-! PROOFS. What a close hands to the flow unit and to the injectors for a FLOWING load (R104, R125, R131, R165 to R167). -/

namespace Sys2Proof.Machine

/-! ### The lag of the entries (R166) -/

/-- Whether an entry lags behind its strokes due. -/
def AddEntry.lags (limit : Nat) (e : AddEntry) : Bool := decide (limit < e.due - e.proven)

theorem lagWatchAfter_eq (limit : Nat) (e : AddEntry) (w : Watch) :
    lagWatchAfter limit e w = if e.lags limit then .raised else .armed := by
  unfold lagWatchAfter AddEntry.lags
  by_cases h : limit < e.due - e.proven
  · simp [h]
  · cases w <;> simp [h]

theorem lagRaises_eq (limit : Nat) (e : AddEntry) (w : Watch) : lagRaises limit e w = (w == .armed && e.lags limit) := rfl

/-- A channel whose lag has been judged. -/
def Injector.judged (limit : Nat) (e : AddEntry) (j : Injector) : Injector :=
  { j with lagWatch := if e.lags limit then .raised else .armed }

/-- A change of the channels of a list of entries that name different ones. -/
theorem State.forAll_modInjector (f : AddEntry → Injector → Injector) (es : List AddEntry) (s : State)
    (hn : (es.map (·.inj)).Nodup) :
    let t := State.forAll es (fun e t => t.modInjector e.inj (f e)) s
    (∀ e ∈ es, t.injector e.inj = f e (s.injector e.inj)) ∧
      (∀ j, (∀ e ∈ es, e.inj ≠ j) → t.injector j = s.injector j) ∧ t = { s with injectors := t.injectors } := by
  induction es generalizing s with
  | nil => exact ⟨fun e he => absurd he List.not_mem_nil, fun _ _ => rfl, rfl⟩
  | cons x xs ih =>
    rw [List.map_cons, List.nodup_cons] at hn
    obtain ⟨hx, hn⟩ := hn
    obtain ⟨hown, hother, hrest⟩ := ih (s.modInjector x.inj (f x)) hn
    have hne : ∀ e ∈ xs, e.inj ≠ x.inj := fun e he e' => hx (e' ▸ List.mem_map_of_mem (f := fun e : AddEntry => e.inj) he)
    dsimp only at hown hother hrest ⊢
    rw [State.forAll_cons]
    refine ⟨fun e he => ?_, fun j hj => ?_, ?_⟩
    · rcases List.mem_cons.mp he with rfl | he
      · rw [hother e.inj hne, State.modInjector_injector_same]
      · rw [hown e he, State.modInjector_injector, if_neg (hne e he)]
    · rw [hother j fun e he => hj e (List.mem_cons_of_mem x he), State.modInjector_injector,
        if_neg fun e => hj x List.mem_cons_self e.symm]
    · rw [hrest]
      rfl

/-- A record with its notice set written anew. -/
def Load.withNotices (ns : List Cause) (l : Load) : Load := { l with notices := ns }

/-- A cause of class NOTE that is bound to no condition, on a load in progress. -/
theorem State.takeCause_notice {s : State} {a : ArmId} {l : Load} {c : Cause} (det : Detail)
    (hcls : s.causes[c.index] = .note) (hc : c.conditionBased = false) (hl : s.head a = some l)
    (hrun : l.state.inProgress = true) :
    Rewritten a l (l.withNotices (insertCause c l.notices)) s (s.takeCause a (.cause c) det) ∧
      s.takeCause a (.cause c) det = { s with
        loads := (s.takeCause a (.cause c) det).loads
        attention := (s.takeCause a (.cause c) det).attention } := by
  have htake := State.takeCause_note det hcls hl hrun
  simp only [Load.keepDetail_other hc] at htake
  rw [htake]
  have hmod := State.modHead_rewritten (f := fun k => k.withNotices (insertCause c k.notices)) hl fun _ h => ⟨rfl, h⟩
  exact ⟨⟨hmod.before, hmod.after, hmod.loads⟩, rfl⟩

/-- ADDITIVE_LAG as NOTE for a list of channels. -/
theorem State.forAll_noteLag (js : List InjId) {s : State} {a : ArmId} {l : Load}
    (hcls : s.causes[Cause.additiveLag.index] = .note) (hl : s.head a = some l) (hrun : l.state.inProgress = true) :
    let t := State.forAll js (fun j t => t.takeCause a (.cause .additiveLag) (.injector j)) s
    ∃ ns, Rewritten a l (l.withNotices ns) s t ∧ (∀ c, c ∈ ns ↔ c ∈ l.notices ∨ (c = .additiveLag ∧ js ≠ [])) ∧
      t = { s with loads := t.loads, attention := t.attention } := by
  induction js generalizing s l with
  | nil => exact ⟨l.notices, .of_loads hl rfl, fun c => by simp, rfl⟩
  | cons j js ih =>
    obtain ⟨hrec, hrest⟩ := State.takeCause_notice (.injector j) hcls rfl hl hrun
    have hcls' : (s.takeCause a (.cause .additiveLag) (.injector j)).causes[Cause.additiveLag.index] = .note := by
      rw [hrest]
      exact hcls
    obtain ⟨ns, hrec', hmem, hrest'⟩ := ih hcls' hrec.after hrun
    dsimp only at hrec' hrest' ⊢
    rw [State.forAll_cons]
    refine ⟨ns, hrec.trans hrec', fun c => ?_, ?_⟩
    · rw [hmem, Load.withNotices]
      simp only [mem_insertCause, ne_eq, reduceCtorEq, not_false_eq_true, and_true]
      tauto
    · rw [hrest', hrest]

/-- What the judgement of the lags leaves. -/
structure LagJudged (a : ArmId) (l : Load) (ns : List Cause) (s t : State) : Prop where
  record  : Rewritten a l (l.withNotices ns) s t
  notices : ∀ c, c ∈ ns ↔ c ∈ l.notices ∨ (c = .additiveLag ∧
              ∃ e ∈ l.adds, e.lags (s.defn a).lag = true ∧ (s.injector e.inj).lagWatch = .armed)
  own     : ∀ e ∈ l.adds, t.injector e.inj = (s.injector e.inj).judged (s.defn a).lag e
  other   : ∀ j, (∀ e ∈ l.adds, e.inj ≠ j) → t.injector j = s.injector j
  rest    : t = { s with
              loads := t.loads, injectors := t.injectors, attention := t.attention, choices := t.choices }

theorem State.judgeLag_judged {s : State} {a : ArmId} {l : Load} (hl : s.head a = some l)
    (hd : l.state.delivers = true) (hn : (l.adds.map (·.inj)).Nodup)
    (hcls : s.causes[Cause.additiveLag.index] = .note) : ∃ ns, LagJudged a l ns s (s.judgeLag a) := by
  obtain ⟨hown, hother, hrest⟩ := State.forAll_modInjector (Injector.judged (s.defn a).lag) l.adds s hn
  have hjudge : s.judgeLag a = State.forAllFree
      ((l.adds.filter fun e => lagRaises (s.defn a).lag e (s.injector e.inj).lagWatch).map (·.inj))
      (fun j t => t.takeCause a (.cause .additiveLag) (.injector j))
      (State.forAll l.adds (fun e t => t.modInjector e.inj (Injector.judged (s.defn a).lag e)) s) := by
    have hf : ∀ e : AddEntry, (fun j : Injector => { j with lagWatch := lagWatchAfter (s.defn a).lag e j.lagWatch }) =
        Injector.judged (s.defn a).lag e := fun e => funext fun j => by rw [lagWatchAfter_eq, Injector.judged]
    unfold State.judgeLag
    rw [hl]
    dsimp only
    rw [if_pos hd]
    simp only [hf]
  rw [hjudge]
  generalize hraised : (l.adds.filter fun e => lagRaises (s.defn a).lag e (s.injector e.inj).lagWatch).map (·.inj) = raised
  generalize State.forAll l.adds (fun e t => t.modInjector e.inj (Injector.judged (s.defn a).lag e)) s = u
    at hown hother hrest ⊢
  have hul : { u with choices := u.choices + 1 }.head a = some l := by
    rw [hrest]
    exact hl
  have hucls : { u with choices := u.choices + 1 }.causes[Cause.additiveLag.index] = .note := by
    rw [hrest]
    exact hcls
  obtain ⟨ns, hrec, hmem, hrest'⟩ := State.forAll_noteLag (freeOrder u.choices raised) hucls hul
    (LoadState.inProgress_of_delivers hd)
  have hne : freeOrder u.choices raised ≠ [] ↔
      ∃ e ∈ l.adds, e.lags (s.defn a).lag = true ∧ (s.injector e.inj).lagWatch = .armed := by
    rw [ne_eq, List.eq_nil_iff_forall_not_mem, not_forall_not]
    simp only [mem_freeOrder, ← hraised, List.mem_map, List.mem_filter, lagRaises_eq, Bool.and_eq_true, beq_iff_eq]
    constructor
    · rintro ⟨-, e, ⟨he, hw, hlag⟩, -⟩
      exact ⟨e, he, hlag, hw⟩
    · rintro ⟨e, he, hlag, hw⟩
      exact ⟨e.inj, e, ⟨he, hw, hlag⟩, rfl⟩
  have hloads : u.loads = s.loads := by rw [hrest]
  have hinj : (State.forAllFree raised (fun j t => t.takeCause a (.cause .additiveLag) (.injector j)) u).injectors =
      u.injectors := by
    rw [State.forAllFree, hrest']
  refine ⟨ns, ⟨hl, hrec.after, ?_⟩, fun c => ?_, fun e he => ?_, fun j hj => ?_, ?_⟩
  · exact hrec.loads.trans (congrArg _ hloads)
  · rw [hmem, hne]
  · rw [State.injector, hinj, ← State.injector, hown e he]
  · rw [State.injector, hinj, ← State.injector, hother j hj]
  · rw [State.forAllFree, hrest', hrest]

/-! ### The flow unit and the injectors together (R104, step 6) -/

/-- Whether a channel that owes an entry a stroke fires it for a delivering load (R167, R173). -/
def State.strikes (s : State) (a : ArmId) (e : AddEntry) : Bool :=
  !noStroke s a && (s.injector e.inj).state == .idle && decide (e.consec < 3) && decide (e.proven < e.due)

theorem State.mayFire_of_delivers {s : State} {a : ArmId} {l : Load} (hd : l.state.delivers = true) (e : AddEntry) :
    s.mayFire a l e = s.strikes a e := by
  have hbar : s.strokesBarred a = noStroke s a := by
    unfold State.strokesBarred State.armLaneShut noStroke
    cases s.laneOf a <;> rfl
  simp only [State.mayFire, firingTest, State.strikes, hbar, hd, Bool.true_or, Bool.and_true, Bool.and_assoc]

theorem State.strikes_congr {s t : State} {a : ArmId} (e : AddEntry) (h : noStroke t a = noStroke s a)
    (hj : (t.injector e.inj).state = (s.injector e.inj).state) : t.strikes a e = s.strikes a e := by
  rw [State.strikes, State.strikes, h, hj]

/-- The entry of a record after step 6 of a close at volume `v`. -/
def State.handedEntry (s : State) (a : ArmId) (v : Nat) (e : AddEntry) : AddEntry :=
  (s.dueAt v e).counted (s.strikes a (s.dueAt v e))

/-- The record after step 6 of a close. -/
def State.handedLoad (s : State) (a : ArmId) (n : Nat) (ns : List Cause) (l : Load) : Load :=
  { l with step := n, adds := l.adds.map (s.handedEntry a l.v), notices := ns }

/-- The capped demand a close leaves (R131, step 1). -/
def State.handedDemand (s : State) (a : ArmId) (q : Nat) : Nat := min q (s.defn a).qMax

/-- What step 6 of a close leaves of a FLOWING load, with the step, limit, rate and demand of the profile and the notices
of the lags. -/
structure HandedOn (a : ArmId) (l : Load) (s t : State) (n limit rate q : Nat) (ns : List Cause) : Prop where
  steps   : StepsTaken (s.recipeOf l).profile l.preset l.v (s.arm a).flow l.step n limit rate q
  record  : Rewritten a l (s.handedLoad a n ns l) s t
  arm     : let pre := s.handedDemand a q
            let flow := splitFlow pre l.share (pre * l.share / 10000) (t.grantOf a)
            let qe := if l.inBody then flow * l.share / 10000 else 0
            t.arm a = { s.arm a with flow := (s.arm a).flow.profiled limit rate q }.setFlow flow (flow - qe) qe
  asked   : s.participates a = true →
              ∃ p ∈ t.header.parts, p.arm = a ∧ p.demand = s.handedDemand a q * l.share / 10000
  notices : ∀ c, c ∈ ns ↔ c ∈ l.notices ∨ (c = .additiveLag ∧
              ∃ e ∈ l.adds, (s.dueAt l.v e).lags (s.defn a).lag = true ∧ (s.injector e.inj).lagWatch = .armed)
  own     : ∀ e ∈ l.adds, t.injector e.inj =
              let j := (s.injector e.inj).judged (s.defn a).lag (s.dueAt l.v e)
              if s.strikes a (s.dueAt l.v e) then j.fire l else j
  other   : ∀ j, (∀ e ∈ l.adds, e.inj ≠ j) → t.injector j = s.injector j
  aside   : Aside a s t

section
variable {s : State} {a : ArmId} {l : Load} (hl : s.head a = some l) (hst : l.state = .flowing)

include hl hst

/-- The injectors' part of step 6 for a FLOWING load, with the record and the channels it leaves. -/
theorem State.handToInjectors_handed (hn : (l.adds.map (·.inj)).Nodup)
    (hcls : s.causes[Cause.additiveLag.index] = .note) :
    ∃ ns, Rewritten a l ((l.withAdds (l.adds.map (s.handedEntry a l.v))).withNotices ns) s (s.handToInjectors a) ∧
      (∀ c, c ∈ ns ↔ c ∈ l.notices ∨ (c = .additiveLag ∧
        ∃ e ∈ l.adds, (s.dueAt l.v e).lags (s.defn a).lag = true ∧ (s.injector e.inj).lagWatch = .armed)) ∧
      (∀ e ∈ l.adds, (s.handToInjectors a).injector e.inj =
        let j := (s.injector e.inj).judged (s.defn a).lag (s.dueAt l.v e)
        if s.strikes a (s.dueAt l.v e) then j.fire l else j) ∧
      (∀ j, (∀ e ∈ l.adds, e.inj ≠ j) → (s.handToInjectors a).injector j = s.injector j) ∧
      s.handToInjectors a = { s with
        loads := (s.handToInjectors a).loads, injectors := (s.handToInjectors a).injectors
        attention := (s.handToInjectors a).attention, choices := (s.handToInjectors a).choices } := by
  have hdel : l.state.delivers = true := by rw [hst]; rfl
  have hdue := State.modHead_rewritten (f := fun l => s.writeDue l.v l) hl fun _ h => ⟨rfl, h⟩
  obtain ⟨ns, hjudged⟩ := State.judgeLag_judged (s := s.modHead a fun l => s.writeDue l.v l)
    (l := l.withAdds (l.adds.map (s.dueAt l.v))) hdue.after hdel
    (by rw [Load.withAdds, List.map_map]; exact hn) hcls
  obtain ⟨hrec, hmem, hown, hother, hrest⟩ := hjudged
  have htested := State.testAllFiring_tested hrec.after (LoadState.inProgress_of_delivers hdel)
    (by rw [Load.withNotices, Load.withAdds, List.map_map]; exact hn)
  have hthead := htested.head hrec.after
  have hhand : s.handToInjectors a =
      State.testAllFiring a (State.judgeLag a (s.modHead a fun l => s.writeDue l.v l)) := rfl
  rw [hhand]
  generalize State.judgeLag a (s.modHead a fun l => s.writeDue l.v l) = u at hrec hmem hown hother hrest htested hthead
  have hstate : ∀ e ∈ l.adds, (u.injector e.inj).state = (s.injector e.inj).state := fun e he => by
    rw [show e.inj = (s.dueAt l.v e).inj from rfl, hown (s.dueAt l.v e) (List.mem_map_of_mem he)]
    rfl
  have hbar : noStroke u a = noStroke s a := by
    rw [hrest]
    rfl
  have hmay : ∀ e ∈ l.adds, u.mayFire a ((l.withAdds (l.adds.map (s.dueAt l.v))).withNotices ns) (s.dueAt l.v e) =
      s.strikes a (s.dueAt l.v e) := fun e he =>
    (State.mayFire_of_delivers hdel _).trans (State.strikes_congr _ hbar (hstate e he))
  have hadds : ((l.withAdds (l.adds.map (s.dueAt l.v))).withNotices ns).adds.map (fun e =>
      e.counted (u.mayFire a ((l.withAdds (l.adds.map (s.dueAt l.v))).withNotices ns) e)) =
        l.adds.map (s.handedEntry a l.v) := by
    simp only [Load.withNotices, Load.withAdds, List.map_map]
    refine List.map_congr_left fun e he => ?_
    have h := hmay e he
    simp only [Load.withNotices, Load.withAdds] at h
    simp only [Function.comp_apply, h, State.handedEntry]
  refine ⟨ns, (hdue.trans hrec).trans ⟨hrec.after, ?_, ?_⟩, fun c => (hmem c).trans ?_, fun e he => ?_, fun j hj => ?_, ?_⟩
  · rw [hthead, List.append_nil, hadds]
    rfl
  · refine htested.loads.trans (congrArg State.loads (State.modHead_congr hrec.after ?_))
    rw [List.append_nil, hadds]
    rfl
  · simp only [Load.withAdds, List.mem_map, exists_exists_and_eq_and]
    rfl
  · have hfired := htested.fired (s.dueAt l.v e) (List.mem_map_of_mem he)
    rw [hmay e he] at hfired
    refine hfired.trans ?_
    rw [hown (s.dueAt l.v e) (List.mem_map_of_mem he)]
    rfl
  · refine (htested.other j fun e he => ?_).trans (hother j fun e he => ?_)
    · obtain ⟨x, hx, rfl⟩ := List.mem_map.mp he
      exact hj x hx
    · obtain ⟨x, hx, rfl⟩ := List.mem_map.mp he
      exact hj x hx
  · rw [htested.only, hrest]
    rfl

/-- Step 6 of a close for a FLOWING load that has begun its flow. -/
theorem State.hand_handedOn (hleft : l.rstLeft = 0) (hstep : 1 ≤ l.step) (hstarted : (s.arm a).flow.started = true)
    (hn : (l.adds.map (·.inj)).Nodup) (hcls : s.causes[Cause.additiveLag.index] = .note) :
    ∃ n limit rate q ns,
      HandedOn a l s (State.handToInjectors a (s.handToFlow a)) n limit rate q ns := by
  obtain ⟨n, limit, rate, q, hprofile, hsteps⟩ := State.evalProfile_profiled hl hst hleft hstep
  have hflow : s.handToFlow a = State.formSplit a
      (State.modFlow a (FlowState.profiled limit rate q) (s.modHead a (Load.atStep n))) := by
    unfold State.handToFlow
    rw [hstarted, State.headIs_of_head hl, hst, hprofile]
    rfl
  have hrec : Rewritten a l (l.atStep n) s (State.modFlow a (FlowState.profiled limit rate q) (s.modHead a (Load.atStep n))) := by
    have h := State.modHead_rewritten (f := Load.atStep n) hl fun _ h => ⟨rfl, h⟩
    exact ⟨h.before, (State.modFlow_head _ _ _ _).trans h.after, h.loads⟩
  have haside : Aside a s (State.modFlow a (FlowState.profiled limit rate q) (s.modHead a (Load.atStep n))) :=
    (State.modHead_aside _ s).trans (State.modFlow_aside _ _)
  have harm : (State.modFlow a (FlowState.profiled limit rate q) (s.modHead a (Load.atStep n))).arm a =
      { s.arm a with flow := (s.arm a).flow.profiled limit rate q } := by
    rw [State.modFlow_arm, if_pos rfl, State.modHead_arm]
  have hbar : noStroke (State.modFlow a (FlowState.profiled limit rate q) (s.modHead a (Load.atStep n))) a =
      noStroke s a := by
    simp only [noStroke, State.laneOf, harm]
    rfl
  have hsplit := State.formSplit_formed hrec.after (show (l.atStep n).state.delivers = true by
    rw [show (l.atStep n).state = l.state from rfl, hst]; rfl)
  have hinj : (State.modFlow a (FlowState.profiled limit rate q) (s.modHead a (Load.atStep n))).injectors = s.injectors :=
    rfl
  rw [hflow]
  generalize State.modFlow a (FlowState.profiled limit rate q) (s.modHead a (Load.atStep n)) = u
    at hrec haside harm hsplit hbar hinj
  have hrec2 := hrec.trans (.of_loads hrec.after (State.formSplit_loads a u))
  have hinj2 : ∀ j, (u.formSplit a).injector j = s.injector j := fun j => by
    have h : (u.formSplit a).injectors = u.injectors := by rw [hsplit.rest]
    rw [State.injector, h, hinj, ← State.injector]
  have harm2 : (u.formSplit a).defn a = s.defn a ∧ noStroke (u.formSplit a) a = noStroke s a := by
    have h1 : ((u.formSplit a).arm a).defn = (s.arm a).defn := by
      rw [hsplit.own, harm]
      rfl
    have h2 : ((u.formSplit a).arm a).locked = (s.arm a).locked := by
      rw [hsplit.own, harm]
      rfl
    have h3 : (u.formSplit a).lanes = s.lanes := by rw [hsplit.rest, haside.rest]
    have h4 : ∀ k, (u.formSplit a).lane k = s.lane k := State.lane_congr h3
    exact ⟨by rw [State.defn, h1, ← State.defn], by simp only [noStroke, State.laneOf, h1, h2, h4]⟩
  have hcls2 : (u.formSplit a).causes[Cause.additiveLag.index] = .note := by
    rw [hsplit.rest, haside.rest]
    exact hcls
  have hdue : ∀ v e, (u.formSplit a).dueAt v e = s.dueAt v e := fun v e => by
    rw [State.dueAt, State.dueAt, hinj2]
  have hstrikes : ∀ e, (u.formSplit a).strikes a e = s.strikes a e := fun e =>
    State.strikes_congr e harm2.2 (by rw [hinj2])
  have hentry : ∀ e, (u.formSplit a).handedEntry a l.v e = s.handedEntry a l.v e := fun e => by
    rw [State.handedEntry, State.handedEntry, hdue, hstrikes]
  obtain ⟨ns, hrec3, hmem, hown, hother, hrest⟩ := State.handToInjectors_handed hrec2.after hst hn hcls2
  have hcap : u.cappedDemand a = s.handedDemand a q := by
    have hd : u.defn a = s.defn a := by
      rw [State.defn, harm]
      rfl
    rw [State.cappedDemand, harm, hd]
    rfl
  have hheader : (State.handToInjectors a (u.formSplit a)).header = (u.formSplit a).header := by rw [hrest]
  have hgrant : (State.handToInjectors a (u.formSplit a)).grantOf a = (u.formSplit a).grantOf a := by
    rw [State.grantOf, State.grantOf, hheader]
  simp only [hinj2, harm2.1, hdue, hstrikes] at hmem hown hother
  refine ⟨n, limit, rate, q, ns, hsteps, ?_, ?_, fun hp => ?_, hmem, hown, hother, ?_⟩
  · have h : Rewritten a l
        (((l.atStep n).withAdds (l.adds.map ((u.formSplit a).handedEntry a l.v))).withNotices ns) s
        (State.handToInjectors a (u.formSplit a)) := hrec2.trans hrec3
    rw [List.map_congr_left (g := s.handedEntry a l.v) fun e _ => hentry e] at h
    exact h
  · have harm3 : (State.handToInjectors a (u.formSplit a)).arm a = (u.formSplit a).arm a := by
      rw [hrest]
      rfl
    rw [harm3, hgrant, hsplit.own, hcap, harm]
    rfl
  · rw [hheader, ← hcap]
    exact hsplit.asked ((participates_of_parts haside.parts a).trans hp)
  · exact (haside.trans hsplit.aside).trans (.of_rest hrest)

end

end Sys2Proof.Machine

end

section
/-! PROOFS. What a stop of a load in progress leaves of its account and its strokes (R8 to R11, R186, R196). -/

namespace Sys2Proof.Machine

/-! ### A busy channel stays busy in the header's operations -/

/-- No channel becomes IDLE. -/
def Busy (s t : State) : Prop := ∀ j, (t.injector j).state = .idle → (s.injector j).state = .idle

section
variable {s t u : State}

theorem Busy.of_same (h : t.injectors = s.injectors) : Busy s t := fun j hj => by
  rwa [State.injector, h, ← State.injector] at hj

theorem Busy.refl (s : State) : Busy s s := fun _ => id

theorem Busy.trans (h : Busy s t) (g : Busy t u) : Busy s u := fun j hj => h j (g j hj)

theorem State.testFiring_busy (a : ArmId) (ch : InjId) (s : State) : Busy s (s.testFiring a ch) := by
  unfold State.testFiring
  split
  · exact .refl s
  · split
    · exact .refl s
    · split
      · intro j hj
        rw [State.modInjector_injector] at hj
        split at hj
        · cases hj
        · exact hj
      · exact .refl s

theorem State.testAllFiring_busy (a : ArmId) (s : State) : Busy s (s.testAllFiring a) :=
  State.forAll_keeps (P := Busy s) (.refl s) fun ch _ t ht => ht.trans (t.testFiring_busy a ch)

theorem State.recomputeGrants_busy (handing : Option ArmId) (s : State) : Busy s (s.recomputeGrants handing) :=
  .of_same (by rw [State.recomputeGrants_eq])

theorem State.formSplit_busy (a : ArmId) (s : State) : Busy s (s.formSplit a) := by
  by_cases hd : s.headIs a LoadState.delivers = true
  · obtain ⟨u, he, h⟩ := State.formSplit_handed hd
    rw [he]
    exact .of_same (by rw [State.applySplit_eq, h.rest])
  · rw [State.formSplit_of_not (Bool.eq_false_iff.mpr hd)]
    exact .refl s

theorem State.evalProfile_busy (a : ArmId) (s : State) : Busy s (s.evalProfile a) := by
  have hsnap : ∀ u : State, (u.snapDemand a).injectors = u.injectors := fun u => by
    unfold State.snapDemand
    split
    · rfl
    · split <;> rfl
  refine .of_same ?_
  unfold State.evalProfile
  split
  · rfl
  · dsimp only
    split
    · rw [hsnap]
      rfl
    · rfl

theorem State.enterFlowing_busy (a : ArmId) (phase : Phase) (s : State) : Busy s (s.enterFlowing a phase) := by
  have hentered : Busy s (s.flowEntered a phase) := by
    unfold State.flowEntered
    dsimp only
    split
    · exact .of_same rfl
    · exact Busy.trans (.of_same rfl) (State.evalProfile_busy a _)
  rw [State.enterFlowing_eq]
  exact (hentered.trans (State.formSplit_busy a _)).trans (State.testAllFiring_busy a _)

theorem State.evaluateQueue_busy (s : State) : Busy s s.evaluateQueue := by
  have hrun : ∀ (n : Nat) (u : State), Busy u (State.evaluateQueueFor n u) := by
    intro n
    induction n with
    | zero => exact fun u => .refl u
    | succ n ih =>
      intro u
      unfold State.evaluateQueueFor
      split
      · exact .refl u
      · rename_i b _ _
        split
        · have hjoin : Busy u (u.joined b) := Busy.trans (.of_same rfl) (State.recomputeGrants_busy none _)
          rw [State.admitHead_eq]
          exact (hjoin.trans (State.enterFlowing_busy b .body _)).trans (ih _)
        · exact .refl u
  exact hrun _ s

theorem State.leaveHeader_busy (a : ArmId) (s : State) : Busy s (s.leaveHeader a) := by
  have hparts : Busy s (s.leaveParticipants a) := by
    unfold State.leaveParticipants
    split
    · have hdrop : Busy s (s.modHeader fun h => { h with parts := h.parts.filter fun p => p.arm != a }) := .of_same rfl
      exact (hdrop.trans (State.recomputeGrants_busy none _)).trans (State.evaluateQueue_busy _)
    · exact .refl s
  have hdrop : Busy s ((s.leaveParticipants a).modHeader fun h => { h with queue := h.queue.filter (· != a) }) :=
    hparts.trans (.of_same rfl)
  unfold State.leaveHeader State.leaveQueue
  split
  · dsimp only
    split
    · exact hdrop.trans (State.evaluateQueue_busy _)
    · exact hdrop
  · exact hparts

end

/-! ### The account of a load through its stop -/

/-- A record without what a stop writes of it (R8 to R11, R187 to R190). -/
def Load.reckoning (l : Load) : Load :=
  { l with
    state := .flowing, admitFrom := none, share := 0, notices := [], holds := [], holdDetails := []
    stop1 := none, stop2 := none, escalated := false, flushInc := false, pendingOut := none }

/-- What a stop of the load of an arm that does not wait leaves: its account, its strokes, and the limit and rate of its
flow. -/
structure Reckoned (a : ArmId) (s t : State) : Prop where
  head  : ∀ l, s.head a = some l → ∃ m, t.head a = some m ∧ m.reckoning = l.reckoning
  limit : (t.arm a).flow.limit = (s.arm a).flow.limit
  rate  : (t.arm a).flow.rate = (s.arm a).flow.rate
  waits : t.waits a = false

section
variable {a : ArmId} {s t u : State}

theorem Reckoned.trans (h : Reckoned a s t) (g : Reckoned a t u) : Reckoned a s u where
  head := fun l hl => by
    obtain ⟨m, hm, hlm⟩ := h.head l hl
    obtain ⟨k, hk, hmk⟩ := g.head m hm
    exact ⟨k, hk, hmk.trans hlm⟩
  limit := g.limit.trans h.limit
  rate := g.rate.trans h.rate
  waits := g.waits

/-- An operation that writes neither the record nor the flow of the arm, nor has it join the queue. -/
theorem Reckoned.of_same (hhead : t.head a = s.head a) (harm : (t.arm a).flow = (s.arm a).flow)
    (hw : t.waits a = false) : Reckoned a s t :=
  ⟨fun l hl => ⟨l, hhead.trans hl, rfl⟩, by rw [harm], by rw [harm], hw⟩

variable (hw : s.waits a = false)

include hw

theorem Reckoned.refl : Reckoned a s s := .of_same rfl rfl hw

theorem State.modHead_reckoned {f : Load → Load}
    (hf : ∀ l, l.state ≠ .ended → (f l).arm = l.arm ∧ (f l).state ≠ .ended)
    (hr : ∀ l, (f l).reckoning = l.reckoning) : Reckoned a s (s.modHead a f) := by
  refine ⟨fun l hl => ⟨f l, ?_, hr l⟩, rfl, rfl, hw⟩
  rw [State.modHead_head hf, if_pos rfl, hl, Option.map_some]

theorem State.modArm_reckoned {g : Arm → Arm}
    (hg : ∀ x, (g x).flow.limit = x.flow.limit ∧ (g x).flow.rate = x.flow.rate) : Reckoned a s (s.modArm a g) := by
  refine ⟨fun l hl => ⟨l, hl, rfl⟩, ?_, ?_, hw⟩ <;> rw [State.modArm_arm_same]
  · exact (hg _).1
  · exact (hg _).2

theorem State.modFlow_reckoned {g : FlowState → FlowState} (hg : ∀ x, (g x).limit = x.limit ∧ (g x).rate = x.rate) :
    Reckoned a s (s.modFlow a g) := State.modArm_reckoned hw fun _ => hg _

theorem State.attend_reckoned (x : Source) : Reckoned a s (s.attend x) := .of_same rfl rfl hw

theorem State.leaveHeader_reckoned : Reckoned a s (s.leaveHeader a) := by
  have hframe := State.leaveHeader_frame (s := s) (.inl hw)
  refine .of_same (hframe.head fun h => h.1 rfl) (by rw [hframe.apart a fun h => h.1 rfl]) ?_
  exact (State.leaveHeader_outside fun hq => absurd hq (State.waits_false.mp hw)).waits

theorem State.cutStrokes_reckoned : Reckoned a s (s.cutStrokes a) := by
  refine .of_same (State.cutStrokes_head a a s) ?_ ?_
  · rw [State.cutStrokes_arm, if_pos rfl]
    rfl
  · rw [State.waits, State.cutStrokes_header]
    exact hw

theorem State.awaitFinal_reckoned : Reckoned a s (s.awaitFinal a) := by
  refine .of_same ?_ ?_ ?_
  · rw [State.awaitFinal_rest]
    rfl
  · rw [State.awaitFinal_arm]
    rfl
  · rw [State.awaitFinal_rest]
    exact hw

theorem State.enterSettling_reckoned (how : Option PendingOutcome) : Reckoned a s (s.enterSettling a how) := by
  have h1 := State.modHead_reckoned (f := Load.enterSettle how) hw (fun _ => Load.enterSettle_keeps how) fun _ => rfl
  have h2 := h1.trans (State.modArm_reckoned (g := Arm.startSettle) h1.waits fun _ => ⟨rfl, rfl⟩)
  have h3 : Reckoned a s (s.settleEntered a how) := h2.trans (State.leaveHeader_reckoned h2.waits)
  rw [State.enterSettling_eq]
  split
  · exact h3.trans (State.cutStrokes_reckoned h3.waits)
  · exact h3.trans (State.awaitFinal_reckoned h3.waits)

theorem State.formSplit_reckoned : Reckoned a s (s.formSplit a) := by
  have hframe := State.formSplit_frame (W := fun _ => False) (P := fun _ => True) (a := a) (s := s) trivial
    fun _ _ => trivial
  have hflow := hframe.unsplit a id
  refine ⟨fun l hl => ⟨l, (hframe.head id).trans hl, rfl⟩, (congrArg (fun x => x.flow.limit) hflow :),
    (congrArg (fun x => x.flow.rate) hflow :), ?_⟩
  have hsame := s.formSplit_sameMembers a
  rw [State.waits, hsame.queue]
  exact hw

/-- The firing tests of a load whose channels owe no stroke they may fire. -/
theorem State.testAllFiring_reckoned {l : Load} (hl : s.head a = some l) (hd : l.state.delivers = true)
    (hn : (l.adds.map (·.inj)).Nodup) (hquiet : ∀ e ∈ l.adds, s.strikes a e = false) :
    Reckoned a s (s.testAllFiring a) := by
  have htested := State.testAllFiring_tested hl (LoadState.inProgress_of_delivers hd) hn
  have hadds : l.adds.map (fun e => e.counted (s.mayFire a l e)) = l.adds := by
    conv_rhs => rw [← List.map_id l.adds]
    refine List.map_congr_left fun e he => ?_
    rw [State.mayFire_of_delivers hd, hquiet e he, AddEntry.counted_false]
    rfl
  have hhead := htested.head hl
  rw [hadds, List.append_nil] at hhead
  refine .of_same (hhead.trans hl.symm) (by rw [State.testAllFiring_arm]) ?_
  rw [State.waits, State.testAllFiring_header]
  exact hw

end

section
variable {a : ArmId} {s : State} {l : Load}

/-- The state in which a load has moved to ENDING and its arm has left the header (R10, R134). -/
def State.endingLeft (a : ArmId) (l : Load) (s : State) : State :=
  State.leaveHeader a <|
    State.modFlow a (fun f => { f with
      flushQty := flushQuantity (s.recipeOf l).flush l.preset (s.defn a).a l.v, flushStart := l.base.gross }) <|
      s.modHead a Load.enterEnd

theorem State.enterEnding_eq (a : ArmId) (l : Load) (s : State) :
    s.enterEnding a l =
      if flushQuantity (s.recipeOf l).flush l.preset (s.defn a).a l.v ≤ 0 then
        (s.endingLeft a l).enterSettling a none
      else State.testAllFiring a ((s.endingLeft a l).formSplit a) := rfl

theorem noStroke_of_apart {M : ArmId → Prop} {t : State} (h : Apart a M s t) : noStroke t a = noStroke s a := by
  have hlane : ∀ n, t.lane n = s.lane n := State.lane_congr h.lanes
  simp only [noStroke, State.laneOf, h.locked, h.defn, hlane]

theorem strikes_of_busy {t : State} {e : AddEntry} (hbar : noStroke t a = noStroke s a) (hb : Busy s t)
    (h : s.strikes a e = false) : t.strikes a e = false := by
  cases hidle : (t.injector e.inj).state == .idle with
  | false => simp [State.strikes, hidle]
  | true =>
    rw [State.strikes_congr e hbar]
    · exact h
    · rw [beq_iff_eq] at hidle
      rw [hidle, hb e.inj hidle]

theorem State.enterEnding_reckoned {k : Load} (hw : s.waits a = false) (hl : s.head a = some l)
    (hn : (l.adds.map (·.inj)).Nodup) (hquiet : ∀ e ∈ l.adds, s.strikes a e = false) :
    Reckoned a s (s.enterEnding a k) := by
  have h1 := State.modHead_reckoned (f := Load.enterEnd) hw (fun _ _ => ⟨rfl, nofun⟩) fun _ => rfl
  have h2 := h1.trans (State.modFlow_reckoned (g := fun f => { f with
    flushQty := flushQuantity (s.recipeOf k).flush k.preset (s.defn a).a k.v, flushStart := k.base.gross }) h1.waits
      fun _ => ⟨rfl, rfl⟩)
  have h3 : Reckoned a s (s.endingLeft a k) := h2.trans (State.leaveHeader_reckoned h2.waits)
  rw [State.enterEnding_eq]
  split
  · exact h3.trans (State.enterSettling_reckoned h3.waits none)
  · have hleft := State.withdrawn_spec (f := Load.enterEnd) (g := fun x => { x with flow := { x.flow with
      flushQty := flushQuantity (s.recipeOf k).flush k.preset (s.defn a).a k.v, flushStart := k.base.gross } })
      (fun _ _ => ⟨rfl, nofun⟩) (fun _ => ⟨rfl, rfl⟩) hl (.inl hw)
    have hend : s.withdrawn a Load.enterEnd (fun x => { x with flow := { x.flow with
        flushQty := flushQuantity (s.recipeOf k).flush k.preset (s.defn a).a k.v, flushStart := k.base.gross } }) =
          s.endingLeft a k := rfl
    rw [hend] at hleft
    have hbusy : Busy s (s.endingLeft a k) := Busy.trans (.of_same rfl) (State.leaveHeader_busy a _)
    have h4 := h3.trans (State.formSplit_reckoned h3.waits)
    have hapart := hleft.apart.trans (State.formSplit_apart hleft.outside.participates)
    have hhead : ((s.endingLeft a k).formSplit a).head a = some l.enterEnd :=
      (State.head_congr (State.formSplit_loads a _) a).trans hleft.head
    refine h4.trans (State.testAllFiring_reckoned h4.waits hhead rfl hn fun e he => ?_)
    exact strikes_of_busy (noStroke_of_apart hapart) (hbusy.trans (State.formSplit_busy a _)) (hquiet e he)

theorem Load.fillStop_reckoning (code : StopCode) (cls : Cls) (det : Detail) (l : Load) :
    (l.fillStop code cls det).reckoning = l.reckoning := by
  rw [Load.fillStop_eq]
  rfl

theorem Load.keepDetail_reckoning (code : StopCode) (det : Detail) (l : Load) :
    (l.keepDetail code det).reckoning = l.reckoning := by
  rw [Load.keepDetail_eq]
  rfl

/-- A cause taken as a HOLD or an END on a FLOWING load. -/
theorem State.takeOnLoad_reckoned (code : StopCode) {cls : Cls} (det : Detail) (hcls : cls = .hold ∨ cls = .endC)
    (hw : s.waits a = false) (hl : s.head a = some l) (hn : (l.adds.map (·.inj)).Nodup)
    (hquiet : ∀ e ∈ l.adds, s.strikes a e = false) {k : Load} (hk : k.state = .flowing) :
    Reckoned a s (s.takeOnLoad a code cls det k) := by
  have hkeep : ∀ k : Load, k.state ≠ .ended →
      (k.keepDetail code det).arm = k.arm ∧ (k.keepDetail code det).state ≠ .ended := fun k hk =>
    ⟨by rw [Load.keepDetail_eq], by rwa [(Load.keepDetail_stage _ _ _).1]⟩
  have hfill : ∀ k : Load, k.state ≠ .ended →
      (k.fillStop code cls det).arm = k.arm ∧ (k.fillStop code cls det).state ≠ .ended := fun k hk =>
    ⟨by rw [Load.fillStop_eq], by rwa [(Load.fillStop_stage _ _ _ _).1]⟩
  have h1 := State.modHead_reckoned hw hkeep fun _ => Load.keepDetail_reckoning code det _
  have h2 := h1.trans (State.modHead_reckoned h1.waits hfill fun _ => Load.fillStop_reckoning code cls det _)
  have hhead : ((s.modHead a (Load.keepDetail code det)).modHead a (Load.fillStop code cls det)).head a =
      some ((l.keepDetail code det).fillStop code cls det) := by
    rw [State.modHead_head hfill, if_pos rfl, State.modHead_head hkeep, if_pos rfl, hl]
    rfl
  have hadds : ((l.keepDetail code det).fillStop code cls det).adds = l.adds := by
    rw [Load.fillStop_eq, Load.keepDetail_eq]
  have hno : asNotice cls k.state = false := by
    rcases hcls with h | h <;> rw [h, hk] <;> rfl
  unfold State.takeOnLoad
  dsimp only
  rw [hno, if_neg Bool.false_ne_true]
  rcases hcls with h | h
  · subst h
    dsimp only
    rw [State.actHold, hk]
    dsimp only
    have hjoin : ∀ k : Load, ({ k.joinHold code with state := .held, admitFrom := none, share := 0 } : Load).arm = k.arm ∧
        ({ k.joinHold code with state := .held, admitFrom := none, share := 0 } : Load).reckoning = k.reckoning :=
      fun k => by cases code <;> exact ⟨rfl, rfl⟩
    have h3 := h2.trans (State.modHead_reckoned
      (f := fun k => { k.joinHold code with state := .held, admitFrom := none, share := 0 }) h2.waits
      (fun k _ => ⟨(hjoin k).1, nofun⟩) fun k => (hjoin k).2)
    have h4 := h3.trans (State.modArm_reckoned (g := Arm.zeroFlow) h3.waits fun _ => ⟨rfl, rfl⟩)
    have h5 := h4.trans (State.leaveHeader_reckoned h4.waits)
    exact h5.trans (State.attend_reckoned h5.waits .loadHeld)
  · subst h
    dsimp only
    rw [State.actEnd, hk]
    dsimp only
    exact h2.trans (State.enterEnding_reckoned h2.waits hhead (by rw [hadds]; exact hn)
      fun e he => hquiet e (hadds ▸ he))

/-- A TRIP on a FLOWING load, be its arm LOCKED or not. -/
theorem State.tripArm_reckoned (c : Cause) (det : Detail) (hw : s.waits a = false) (hl : s.head a = some l)
    (hst : l.state = .flowing) : Reckoned a s (s.tripArm a c det) := by
  have hpre : l.state.preSettling = true := by rw [hst]; rfl
  have htrip : Reckoned a s (s.laneTrip c det a) ∧ (s.laneTrip c det a).outside a := by
    have hleft := State.withdrawn_spec (f := Load.trippedBy c det) (g := Arm.startSettle)
      (fun _ => Load.trippedBy_keeps c det) (fun _ => ⟨rfl, rfl⟩) hl (.inl hw)
    have h1 := State.modHead_reckoned (f := Load.trippedBy c det) hw (fun _ => Load.trippedBy_keeps c det) fun k => by
      rw [Load.trippedBy_eq]
      rfl
    have h2 := h1.trans (State.modArm_reckoned (g := Arm.startSettle) h1.waits fun _ => ⟨rfl, rfl⟩)
    have h3 : Reckoned a s (s.withdrawn a (Load.trippedBy c det) Arm.startSettle) :=
      h2.trans (State.leaveHeader_reckoned h2.waits)
    have h4 := h3.trans (State.cutStrokes_reckoned h3.waits)
    have h5 := h4.trans (State.modArm_reckoned (g := Arm.lock c det) h4.waits fun x => by
      unfold Arm.lock
      split <;> exact ⟨rfl, rfl⟩)
    rw [State.laneTrip_running c det hl hpre]
    refine ⟨h5.trans (State.attend_reckoned h5.waits .armLocked), ?_⟩
    rw [State.lockArm_eq, State.outside, State.attend_header, State.modArm_header, State.cutStrokes_header]
    exact hleft.outside
  obtain ⟨hreck, hout⟩ := htrip
  unfold State.tripArm
  dsimp only
  split
  · refine hreck.trans ?_
    generalize s.laneTrip c det a = u at hreck hout ⊢
    unfold State.escalateLane
    split
    · exact .refl hreck.waits
    · rename_i n _
      split
      · exact .refl hreck.waits
      · obtain ⟨hloads, hheader, -⟩ := u.shutLane_rest n c
        have hshut : Reckoned a u (u.shutLane n c) := by
          refine .of_same (State.head_congr hloads a) ?_ ?_
          · rw [State.shutLane_arm]
            split <;> rfl
          · rw [State.waits, hheader]
            exact hreck.waits
        have hout' : (u.shutLane n c).outside a := by
          rw [State.outside, hheader]
          exact hout
        have hpass : Passed a (u.shutLane n c) (State.forAllFree ((u.laneArms n).filter (· != a)) (State.laneTrip c det)
            (u.shutLane n c)) := by
          refine Passed.trans (t := { u.shutLane n c with choices := (u.shutLane n c).choices + 1 })
            (.of_same rfl rfl rfl (.of_header rfl)) (State.forAll_passed fun b hb v => ?_)
          refine State.laneTrip_passed c det ?_ v
          have hne := (List.mem_filter.mp (mem_freeOrder.mp hb)).2
          exact fun e => by simp [e] at hne
        refine hshut.trans (.of_same (hpass.stays hout'.1).2.2 (by rw [hpass.apart hout']) ?_)
        exact State.waits_false.mpr (hpass.stays hout'.1).1
  · exact hreck

/-- A cause of any class but NOTE on a FLOWING load whose channels owe no stroke they may fire. -/
theorem State.takeCause_reckoned {c : Cause} (det : Detail) (hcls : s.causes[c.index] ≠ .note) (hw : s.waits a = false)
    (hl : s.head a = some l) (hst : l.state = .flowing) (hn : (l.adds.map (·.inj)).Nodup)
    (hquiet : ∀ e ∈ l.adds, s.strikes a e = false) : Reckoned a s (s.takeCause a (.cause c) det) := by
  have hrunning : s.running a = some l := by
    rw [State.running_of_head hl, hst]
    rfl
  have hescalate := State.modHead_reckoned (f := Load.escalate) hw (fun _ h => ⟨rfl, h⟩) fun _ => rfl
  have hhead : (s.modHead a Load.escalate).head a = some l.escalate :=
    (State.modHead_rewritten (f := Load.escalate) hl fun _ h => ⟨rfl, h⟩).after
  unfold State.takeCause
  dsimp only
  split
  · exact State.tripArm_reckoned _ det hw hl hst
  · rename_i hno
    have hcls' : s.classOf (.cause c) = .hold ∨ s.classOf (.cause c) = .endC := by
      cases h : s.classOf (.cause c) with
      | note => exact absurd h hcls
      | trip => exact absurd h (hno c rfl)
      | hold => exact .inl rfl
      | endC => exact .inr rfl
    rw [hrunning]
    dsimp only
    split
    · exact hescalate.trans (State.takeOnLoad_reckoned _ det (.inr rfl) hescalate.waits hhead hn hquiet hst)
    · exact State.takeOnLoad_reckoned _ det hcls' hw hl hn hquiet hst

/-- A pulse told to the flow unit where no restart volume is left. -/
theorem State.reportPulse_reckoned (r : Role) (m : MeterId) (hw : s.waits a = false) (hl : s.head a = some l)
    (hleft : l.rstLeft = 0) : Reckoned a s (s.reportPulse a r m false) := by
  have hrestart : s.updateRestart a = s := by
    simp [State.updateRestart, hl, hleft]
  have hseen : ∀ x : FlowState, (x.pulseSeen (s.defn a).noFlow r).limit = x.limit ∧
      (x.pulseSeen (s.defn a).noFlow r).rate = x.rate := fun x => by
    unfold FlowState.pulseSeen
    cases r <;> dsimp only <;> split <;> exact ⟨rfl, rfl⟩
  have hflow := State.modFlow_reckoned hw hseen
  unfold State.reportPulse
  rw [hrestart]
  dsimp only
  rw [hl]
  dsimp only
  split
  · exact hflow
  · split
    · exact hflow.trans (State.enterSettling_reckoned hflow.waits none)
    · exact hflow
  · rw [Bool.false_and, if_neg Bool.false_ne_true]
    exact .refl hw
  · exact .refl hw
  · exact .refl hw
  · exact .refl hw
  · exact .refl hw

end

end Sys2Proof.Machine

end

section
/-! PROOFS. A pulse on a FLOWING load: between boundaries, at a close in the body and at the body end (R79, R101 to R113). -/

namespace Sys2Proof.Machine

/-! ### The flow unit is told of the pulse (R136) -/

theorem FlowState.pulseSeen_eq (time : Nat) (r : Role) (f : FlowState) :
    f.pulseSeen time r =
      { f with
        noFlowBase := if r = .base ∧ 0 < f.qBase then some time else f.noFlowBase
        noFlowEth := if r = .ethanol ∧ 0 < f.qEth then some time else f.noFlowEth } := by
  unfold FlowState.pulseSeen
  cases r with
  | base =>
    by_cases h : 0 < f.qBase <;> simp [h]
  | ethanol =>
    by_cases h : 0 < f.qEth <;> simp [h]

section
variable {s : State} {a : ArmId} {l : Load}

theorem State.reportPulse_flowing (r : Role) (m : MeterId) (hl : s.head a = some l) (hst : l.state = .flowing)
    (hleft : l.rstLeft = 0) :
    s.reportPulse a r m false = s.modFlow a (FlowState.pulseSeen (s.defn a).noFlow r) := by
  have hrestart : s.updateRestart a = s := by
    simp [State.updateRestart, hl, hleft]
  simp [State.reportPulse, hrestart, hl, hst]

theorem State.closeIfDue_before (hl : s.head a = some l)
    (hv : l.v < nextBoundary (s.defn a).w l.db (closeAhead l.preset (s.defn a).a) l.vc) : s.closeIfDue a = s := by
  simp only [State.closeIfDue, hl]
  exact if_neg (by simp [hv])

/-- A credit writes one account and V alone. -/
theorem Load.credit_eq (x : Meter) (r : Role) (l : Load) :
    l.credit x r = { l with base := (l.credit x r).base, eth := (l.credit x r).eth, v := (l.credit x r).v } := by
  cases r <;> rfl

/-! ### The close in the body (R104, R111, R112) -/

/-- A close short of the body end: the record before step 6, what step 6 leaves, and whether RATIO_DEVIATION follows. -/
theorem State.intervalClose_body (hl : s.head a = some l) (hst : l.state = .flowing) (hphase : l.phase = .body)
    (hleft : l.rstLeft = 0) (hstep : 1 ≤ l.step) (hstarted : (s.arm a).flow.started = true)
    (hn : (l.adds.map (·.inj)).Nodup) (hcls : s.causes[Cause.additiveLag.index] = .note)
    (hahead : l.v < closeAhead l.preset (s.defn a).a) (hdb : l.v < l.db) :
    let k := (s.closeAccounts l).shareAndAlarm (s.defn a) (s.recipeOf l)
    ∃ u t n limit rate q ns, u = { s with loads := u.loads } ∧ Rewritten a l k s u ∧
      HandedOn a k u t n limit rate q ns ∧
      s.intervalClose a =
        if (s.closeAccounts l).alarmRaised (s.defn a) (s.recipeOf l) then t.raiseRatio a (s.closeAccounts l).dev else t := by
  have hlined := State.closeAccounts_lined (s := s) (l := l) (by rw [hst]; rfl)
  have hclosed : Rewritten a l (s.closeAccounts l) s (s.closed a) :=
    State.modHead_rewritten hl fun _ => s.closeAccounts_keeps
  have hbody : (s.closeAccounts l).inBody = true := by
    rw [Load.inBody, (s.closeAccounts_stage l).1, (s.closeAccounts_stage l).2, hst, hphase]
    rfl
  have hact : (s.closed a).actFindings a (s.closeAccounts l) = s.closed a := by
    rw [State.actFindings, hlined]
    exact (if_neg (Nat.not_le.mpr hahead)).trans (if_neg (Nat.not_le.mpr hdb))
  have hrecipe : (s.closed a).recipeOf (s.closeAccounts l) = s.recipeOf l := by
    rw [hlined]
    rfl
  have hclose := State.intervalClose_of hl (by rw [hact]; exact hclosed.after)
  rw [hact] at hclose
  dsimp only at hclose ⊢
  rw [hrecipe, hbody, if_pos rfl] at hclose
  have hshare : Rewritten a l ((s.closeAccounts l).shareAndAlarm (s.defn a) (s.recipeOf l)) s
      ((s.closed a).modHead a (Load.shareAndAlarm (s.defn a) (s.recipeOf l))) :=
    hclosed.trans (State.modHead_rewritten hclosed.after fun _ h => ⟨rfl, h⟩)
  have hk : (s.closeAccounts l).shareAndAlarm (s.defn a) (s.recipeOf l) = { l with
      vc := ((s.closeAccounts l).shareAndAlarm (s.defn a) (s.recipeOf l)).vc
      base := ((s.closeAccounts l).shareAndAlarm (s.defn a) (s.recipeOf l)).base
      eth := ((s.closeAccounts l).shareAndAlarm (s.defn a) (s.recipeOf l)).eth
      dev := ((s.closeAccounts l).shareAndAlarm (s.defn a) (s.recipeOf l)).dev
      peak := ((s.closeAccounts l).shareAndAlarm (s.defn a) (s.recipeOf l)).peak
      alarms := ((s.closeAccounts l).shareAndAlarm (s.defn a) (s.recipeOf l)).alarms
      share := ((s.closeAccounts l).shareAndAlarm (s.defn a) (s.recipeOf l)).share } := by
    rw [hlined]
    rfl
  generalize (s.closeAccounts l).shareAndAlarm (s.defn a) (s.recipeOf l) = k at hshare hk
  obtain ⟨n, limit, rate, q, ns, hhand⟩ := State.hand_handedOn hshare.after (by rw [hk]; exact hst) (by rw [hk]; exact hleft)
    (by rw [hk]; exact hstep) hstarted (by rw [hk]; exact hn) hcls
  exact ⟨_, _, n, limit, rate, q, ns, rfl, hshare, hhand, hclose⟩

/-! ### The close that ends the body (R12(b), R113) -/

/-- A close at the body end: the load passes to FLUSH and its arm leaves the header before step 6. -/
theorem State.intervalClose_flush (hl : s.head a = some l) (hst : l.state = .flowing) (hphase : l.phase = .body)
    (hleft : l.rstLeft = 0) (hstep : 1 ≤ l.step) (hstarted : (s.arm a).flow.started = true)
    (hn : (l.adds.map (·.inj)).Nodup) (hcls : s.causes[Cause.additiveLag.index] = .note) (hw : s.waits a = false)
    (hahead : l.v < closeAhead l.preset (s.defn a).a) (hdb : l.db ≤ l.v) :
    ∃ u n limit rate q ns, Kept s u ∧ u.recipes = s.recipes ∧ u.arm a = s.arm a ∧ u.outside a ∧
      HandedOn a (s.closeAccounts l).enterFlush u (s.intervalClose a) n limit rate q ns := by
  have hlined := State.closeAccounts_lined (s := s) (l := l) (by rw [hst]; rfl)
  have hclosed := State.closed_head hl
  have hstate : (s.closeAccounts l).state = .flowing := (s.closeAccounts_stage l).1.trans hst
  have hbody : (s.closeAccounts l).phase = .body := (s.closeAccounts_stage l).2.trans hphase
  have hact : (s.closed a).actFindings a (s.closeAccounts l) =
      (s.closed a).withdrawn a Load.enterFlush id := by
    have hfind : (s.closed a).actFindings a (s.closeAccounts l) =
        State.leaveHeader a ((s.closed a).modHead a Load.enterFlush) := by
      rw [State.actFindings, if_neg, if_pos, hstate]
      · dsimp only
        rw [hbody]
        rfl
      · rw [hlined]
        exact hdb
      · rw [hlined]
        exact Nat.not_le.mpr hahead
    rw [hfind, State.withdrawn, State.modArm_of_same rfl]
  obtain ⟨hhead, harm, hout, hapart⟩ := State.withdrawn_spec (f := Load.enterFlush) (g := id) (fun _ h => ⟨rfl, h⟩)
    (fun _ => ⟨rfl, rfl⟩) hclosed (.inl hw)
  have hkept : Kept s ((s.closed a).actFindings a (s.closeAccounts l)) :=
    (State.modHead_kept fun _ => s.closeAccounts_kept).trans (State.actFindings_kept a _ _)
  rw [hact] at hkept
  have hclose := State.intervalClose_of hl (hact ▸ hhead)
  rw [hact] at hclose
  dsimp only at hclose
  have hnot : (s.closeAccounts l).enterFlush.inBody = false := by
    rw [Load.inBody, Load.enterFlush]
    simp
  simp only [hnot, Load.alarmRaised, Bool.false_and, if_neg Bool.false_ne_true] at hclose
  generalize (s.closed a).withdrawn a Load.enterFlush id = u at hhead harm hout hapart hkept hclose
  have hk : (s.closeAccounts l).enterFlush = { (s.closeAccounts l).enterFlush with
      state := .flowing, rstLeft := l.rstLeft, step := l.step, adds := l.adds } := by
    rw [hlined]
    simp only [Load.enterFlush, hst]
  obtain ⟨n, limit, rate, q, ns, hhand⟩ := State.hand_handedOn hhead (by rw [hk]) (by rw [hk]; exact hleft)
    (by rw [hk]; exact hstep) (by rw [harm]; exact hstarted) (by rw [hk]; exact hn) (by rw [hkept.causes]; exact hcls)
  rw [← hclose] at hhand
  exact ⟨u, n, limit, rate, q, ns, hkept, hapart.recipes, harm, hout, hhand⟩

end

/-! ### What the two closes leave, as the statement says it -/

theorem splitFlow_eq (pre share demand : Nat) (g : Option Nat) :
    splitFlow pre share demand g =
      if share = 0 then pre else match g with
        | none => pre
        | some g => if g < demand then min pre (g * 10000 / share) else pre := by
  unfold splitFlow
  cases g <;> rfl

theorem StepsTaken.stated {profile : List Step} {preset v first n limit rate q : Nat} {f : FlowState}
    {holds : Step → Prop} (h : StepsTaken profile preset v f first n limit rate q)
    (hh : ∀ p, holds p ↔ p.holds preset v = true) :
    first ≤ n ∧ (∀ i, first ≤ i → i < n → ∃ p, profile[i - 1]? = some p ∧ holds p) ∧
      (∀ p, profile[n - 1]? = some p → ¬ holds p) ∧ (n = first → limit = f.limit ∧ rate = f.rate) ∧
      (first < n → ∃ p, profile[n - 2]? = some p ∧ limit = p.limit ∧ rate = p.rate) := by
  refine ⟨h.le, fun i h1 h2 => ?_, fun p hp hholds => ?_, h.same, h.last⟩
  · obtain ⟨p, hp, hpx⟩ := h.holds i h1 h2
    exact ⟨p, hp, (hh p).mpr hpx⟩
  · have htrue := (hh p).mp hholds
    rw [h.stops p hp] at htrue
    cases htrue

section
variable {a : ArmId} {l : Load} {s t : State} {n limit rate q : Nat} {ns : List Cause}

theorem HandedOn.noStroke_same (h : HandedOn a l s t n limit rate q ns) : noStroke t a = noStroke s a := by
  have hdefn : (t.arm a).defn = (s.arm a).defn := by
    rw [h.arm]
    rfl
  have hlock : (t.arm a).locked = (s.arm a).locked := by
    rw [h.arm]
    rfl
  have hlane : ∀ k, t.lane k = s.lane k := State.lane_congr (by rw [h.aside.rest])
  simp only [noStroke, State.laneOf, hdefn, hlock, hlane]

/-- After step 6 no channel of the load owes a stroke it may fire. -/
theorem HandedOn.quiet (h : HandedOn a l s t n limit rate q ns) :
    ∀ e ∈ (s.handedLoad a n ns l).adds, t.strikes a e = false := by
  intro e he
  obtain ⟨x, hx, rfl⟩ := List.mem_map.mp he
  have hown := h.own x hx
  dsimp only at hown
  cases hfires : s.strikes a (s.dueAt l.v x) with
  | true =>
    rw [hfires, if_pos rfl] at hown
    have hbusy : (t.injector (s.handedEntry a l.v x).inj).state = .firing := by
      rw [show (s.handedEntry a l.v x).inj = x.inj from rfl, hown]
      rfl
    simp [State.strikes, hbusy]
  | false =>
    rw [hfires, if_neg Bool.false_ne_true] at hown
    have hsame : t.strikes a (s.handedEntry a l.v x) = s.strikes a (s.handedEntry a l.v x) := by
      refine State.strikes_congr _ h.noStroke_same ?_
      rw [show (s.handedEntry a l.v x).inj = x.inj from rfl, hown]
      rfl
    rw [hsame]
    exact hfires

theorem HandedOn.waits (h : HandedOn a l s t n limit rate q ns) (hw : s.waits a = false) : t.waits a = false := by
  rw [State.waits, h.aside.rest]
  exact hw

theorem State.reportPulse_held (r : Role) (m : MeterId) (hl : s.head a = some l) (hst : l.state = .held)
    (hleft : l.rstLeft = 0) : s.reportPulse a r m false = s := by
  have hrestart : s.updateRestart a = s := by
    simp [State.updateRestart, hl, hleft]
  simp [State.reportPulse, hrestart, hl, hst]

end

theorem Injector.fire_of_flowing {l : Load} (h : l.state = .flowing) (j : Injector) :
    j.fire l = { j with
      state := .firing, strokeLoad := some l.number, pulseTimer := some j.width, proofTimer := some j.proofTo } := by
  rw [Injector.fire, h]
  rfl

/-- A cause of class NOTE or none raised at a close: the state differs in the notices and the flags alone. -/
theorem State.raiseRatio_noted {s : State} {a : ArmId} {l : Load} (raised : Bool) (dev : Int) (hl : s.head a = some l)
    (hst : l.state = .flowing) (h : raised = false ∨ s.causes[Cause.ratioDeviation.index] = .note) :
    let t := if raised then s.raiseRatio a dev else s
    ∃ ns, Rewritten a l (l.withNotices ns) s t ∧
      (∀ c, c ∈ ns ↔ c ∈ l.notices ∨ (c = .ratioDeviation ∧ raised = true)) ∧
      t = { s with loads := t.loads, attention := t.attention } := by
  cases raised with
  | false => exact ⟨l.notices, .of_loads hl rfl, fun c => by simp, rfl⟩
  | true =>
    have hcls := h.resolve_left (by simp)
    obtain ⟨hrec, hrest⟩ := State.takeCause_notice (c := .ratioDeviation) (if 0 < dev then .shortOf else .excess) hcls rfl hl
      (by rw [hst]; rfl)
    refine ⟨_, hrec, fun c => ?_, hrest⟩
    rw [mem_insertCause]
    simp [or_comm]

/-! ### The split flow of a delivering load, and the pulse that follows (R70, R131, R136) -/

/-- An arm with its flow split: setpoints, valve commands and no-flow timers. -/
def Arm.splitAt (x : Arm) (f : FlowState) (q qe : Nat) (nb ne : Timer) : Arm :=
  { x with
    flow := { f with q := q, qBase := q - qe, qEth := qe, noFlowBase := nb, noFlowEth := ne }
    valveBase := valveCommand (q - qe) (x.defn.getD noArmDef).fsBase
    valveEth := valveCommand qe (x.defn.getD noArmDef).fsEth }

theorem Arm.setFlow_splitAt (x : Arm) (f : FlowState) (q qe : Nat) :
    ∃ nb ne, { x with flow := f }.setFlow q (q - qe) qe = x.splitAt f q qe nb ne ∧ (qe = 0 → ne = none) :=
  ⟨_, _, rfl, fun h => if_pos h⟩

theorem Arm.splitAt_seen (x : Arm) (f : FlowState) (q qe time : Nat) (r : Role) (nb ne : Timer) (h : qe = 0 → ne = none) :
    ∃ nb' ne', { x.splitAt f q qe nb ne with flow := (x.splitAt f q qe nb ne).flow.pulseSeen time r } =
      x.splitAt f q qe nb' ne' ∧ (qe = 0 → ne' = none) := by
  rw [FlowState.pulseSeen_eq]
  refine ⟨_, _, rfl, fun hq => ?_⟩
  exact (if_neg fun g => g.2.ne' hq).trans (h hq)

/-! ### A close in the body, as it leaves the state -/

/-- What a close of a load that stays in the body leaves, with RATIO_DEVIATION of class NOTE where `raised`. -/
structure BodyClosed (a : ArmId) (l k : Load) (s t : State) (limit rate q share : Nat) (late fires : AddEntry → Bool)
    (raised : Bool) (meters : Vector Meter 16) : Prop where
  record  : Rewritten a l k s t
  arm     : ∃ nb ne,
              let pre := min q (s.defn a).qMax
              let flow := splitFlow pre share (pre * share / 10000) (t.grantOf a)
              t.arm a = (s.arm a).splitAt ((s.arm a).flow.profiled limit rate q) flow (flow * share / 10000) nb ne ∧
                (flow * share / 10000 = 0 → ne = none)
  asked   : s.participates a = true →
              ∃ p ∈ t.header.parts, p.arm = a ∧ p.demand = min q (s.defn a).qMax * share / 10000
  notices : ∀ c, c ∈ k.notices ↔ c ∈ l.notices ∨ (c = .ratioDeviation ∧ raised = true) ∨
              (c = .additiveLag ∧ ∃ e ∈ l.adds, late e = true ∧ (s.injector e.inj).lagWatch = .armed)
  fired   : ∀ e ∈ l.adds, t.injector e.inj =
              let j := { s.injector e.inj with lagWatch := if late e then .raised else .armed }
              if fires e then { j with
                state := .firing, strokeLoad := some l.number, pulseTimer := some j.width, proofTimer := some j.proofTo }
              else j
  other   : ∀ j, (∀ e ∈ l.adds, e.inj ≠ j) → t.injector j = s.injector j
  rest    : t = { s with
              loads := t.loads, arms := t.arms, injectors := t.injectors, attention := t.attention
              choices := t.choices, meters := meters, header := { s.header with parts := t.header.parts } }
  others  : ∀ b, b ≠ a → s.participates b = false → t.arm b = s.arm b

section
variable {a : ArmId} {l k : Load} {s u t : State} {n limit rate q : Nat} {ns : List Cause}

/-- Step 6 of a close in the body, over a state that differs in its records and meters alone. -/
theorem HandedOn.bodyClosed (h : HandedOn a k u t n limit rate q ns)
    (hu : u = { s with loads := u.loads, meters := u.meters }) (hrec : Rewritten a l k s u) (hst : k.state = .flowing)
    (hphase : k.phase = .body) (hadds : k.adds = l.adds) (hnotices : k.notices = l.notices) (hnumber : k.number = l.number) :
    BodyClosed a l (s.handedLoad a n ns k) s t limit rate q k.share
      (fun e => (s.dueAt k.v e).lags (s.defn a).lag) (fun e => s.strikes a (s.dueAt k.v e)) false u.meters := by
  generalize u.meters = ms at hu ⊢
  generalize u.loads = ls at hu
  subst hu
  obtain ⟨-, hrecord, harm, hasked, hmem, hown, hother, haside⟩ := h
  have hbody : k.inBody = true := by simp [Load.inBody, hst, hphase]
  rw [hbody] at harm
  obtain ⟨nb, ne, hsplit, hne⟩ := Arm.setFlow_splitAt (s.arm a) ((s.arm a).flow.profiled limit rate q)
    (splitFlow (min q (s.defn a).qMax) k.share (min q (s.defn a).qMax * k.share / 10000) (t.grantOf a))
    (splitFlow (min q (s.defn a).qMax) k.share (min q (s.defn a).qMax * k.share / 10000) (t.grantOf a) * k.share / 10000)
  refine ⟨hrec.trans hrecord, ⟨nb, ne, harm.trans hsplit, hne⟩, hasked, fun c => (hmem c).trans ?_, fun e he => ?_,
    fun j hj => hother j (hadds ▸ hj), haside.rest, haside.others⟩
  · rw [hadds, hnotices]
    simp only [Bool.false_eq_true, and_false, false_or]
    rfl
  · have hfire := hown e (hadds ▸ he)
    dsimp only at hfire
    rw [Injector.fire_of_flowing hst, hnumber] at hfire
    exact hfire

end

section
variable {a : ArmId} {l k : Load} {s t : State} {limit rate q share : Nat} {late fires : AddEntry → Bool}
  {ms : Vector Meter 16}

/-- RATIO_DEVIATION of class NOTE, where it follows the close. -/
theorem BodyClosed.raised (h : BodyClosed a l k s t limit rate q share late fires false ms) (hst : k.state = .flowing)
    {raised : Bool} (hcase : raised = false ∨ t.causes[Cause.ratioDeviation.index] = .note) (dev : Int) :
    ∃ ns, BodyClosed a l (k.withNotices ns) s (if raised then t.raiseRatio a dev else t)
      limit rate q share late fires raised ms := by
  obtain ⟨ns, hrec, hmem, hrest⟩ := State.raiseRatio_noted raised dev h.record.after hst hcase
  generalize (if raised = true then t.raiseRatio a dev else t) = w at hrec hrest
  have harms : ∀ b, w.arm b = t.arm b := fun b => by
    rw [hrest]
    rfl
  have hinjs : ∀ j, w.injector j = t.injector j := fun j => by
    rw [hrest]
    rfl
  have hheader : w.header = t.header := by rw [hrest]
  have hgrant : w.grantOf a = t.grantOf a := by rw [State.grantOf, State.grantOf, hheader]
  refine ⟨ns, h.record.trans hrec, ?_, ?_, fun c => ?_, fun e he => (hinjs _).trans (h.fired e he),
    fun j hj => (hinjs j).trans (h.other j hj), ?_, fun b hb hp => (harms b).trans (h.others b hb hp)⟩
  · rw [harms, hgrant]
    exact h.arm
  · rw [hheader]
    exact h.asked
  · rw [show (k.withNotices ns).notices = ns from rfl, hmem, h.notices]
    simp only [Bool.false_eq_true, and_false, false_or]
    rw [or_assoc, or_comm (a := c = .additiveLag ∧ _)]
  · rw [hrest, h.rest]

/-- The pulse told to the flow unit after the close writes the no-flow timers alone. -/
theorem BodyClosed.seen {raised : Bool} (h : BodyClosed a l k s t limit rate q share late fires raised ms)
    (hst : k.state = .flowing) (hleft : k.rstLeft = 0) (r : Role) (m : MeterId) :
    BodyClosed a l k s (t.reportPulse a r m false) limit rate q share late fires raised ms := by
  rw [State.reportPulse_flowing r m h.record.after hst hleft]
  obtain ⟨nb, ne, harm, hne⟩ := h.arm
  obtain ⟨nb', ne', hseen, hne'⟩ := Arm.splitAt_seen (s.arm a) ((s.arm a).flow.profiled limit rate q)
    (splitFlow (min q (s.defn a).qMax) share (min q (s.defn a).qMax * share / 10000) (t.grantOf a))
    (splitFlow (min q (s.defn a).qMax) share (min q (s.defn a).qMax * share / 10000) (t.grantOf a) * share / 10000)
    (t.defn a).noFlow r nb ne hne
  refine ⟨h.record.trans (.of_loads h.record.after rfl), ⟨nb', ne', ?_, hne'⟩, h.asked, h.notices, h.fired, h.other, ?_,
    fun b hb hp => ?_⟩
  · rw [State.modFlow_arm, if_pos rfl, harm]
    exact hseen
  · rw [State.modFlow, State.modArm]
    dsimp only
    rw [h.rest]
  · rw [State.modFlow_arm, if_neg hb]
    exact h.others b hb hp

end

end Sys2Proof.Machine

end

section
/-! PROOFS. The credit of a pulse and the steps of its close, over the state the pulse finds (R79, R101 to R113). -/

namespace Sys2Proof.Machine

/-! ### The credit and the steps of its close -/

/-- The record of a load in ADMITTING, FLOWING or HELD after a credited pulse and steps 1 to 3 of its close. -/
def State.creditClosed (s : State) (m : MeterId) (r : Role) (l : Load) : Load :=
  let c := l.credit (s.meter m) r
  { c with
    vc := c.v
    base := closedAccount (s.meter (s.defn l.arm).baseMeter) c.base
    eth := s.closedEth (s.defn l.arm) c.eth
    dev := ethLine l.et l.ea l.db l.va c.v - c.eth.gross
    peak := max l.peak (ethLine l.et l.ea l.db l.va c.v - c.eth.gross).natAbs }

section
variable {m : MeterId} {a : ArmId} {role : Role} {l : Load} {s : State}

theorem State.pulsed_closeAccounts (hst : l.state = .flowing) :
    (s.pulsed m a role).closeAccounts (l.credit (s.meter m) role) = s.creditClosed m role l := by
  have hc := Load.credit_eq (s.meter m) role l
  rw [State.closeAccounts_lined (by rw [hc, hst]; rfl), State.creditClosed]
  simp only [State.pulsed_closedAccount, State.pulsed_closedEth]
  rw [hc]
  rfl

theorem State.pulsed_rewritten (hl : s.head a = some l) :
    Rewritten a l (l.credit (s.meter m) role) s (s.pulsed m a role) :=
  ⟨hl, State.pulsed_head hl, (State.modHead_rewritten (s := s.modMeter m Meter.pulse) (f := Load.credit (s.meter m) role) hl
    fun _ => Load.credit_keeps _ _).loads⟩

theorem State.pulsed_meter {i : MeterId} (hi : i ≠ m) : (s.pulsed m a role).meter i = s.meter i :=
  (State.modMeter_meter _ _ _ _).trans (if_neg hi)

theorem State.takePulse_flowing (hb : s.meterBinding m = some (a, role)) (hl : s.head a = some l) (hst : l.state = .flowing) :
    s.takePulse m = State.reportPulse a role m false (State.closeIfDue a (s.pulsed m a role)) := by
  rw [State.takePulse_credited hb hl (by rw [hst]; rfl), hst]
  rfl

/-- The pulse of a FLOWING load between boundaries is credited and told to the flow unit. -/
theorem State.takePulse_before (hb : s.meterBinding m = some (a, role)) (hl : s.head a = some l) (hst : l.state = .flowing)
    (hleft : l.rstLeft = 0)
    (hv : (l.credit (s.meter m) role).v < nextBoundary (s.defn a).w l.db (closeAhead l.preset (s.defn a).a) l.vc) :
    s.takePulse m =
      (s.pulsed m a role).modFlow a (FlowState.pulseSeen ((s.pulsed m a role).defn a).noFlow role) := by
  have hc := Load.credit_eq (s.meter m) role l
  rw [State.takePulse_flowing hb hl hst, State.closeIfDue_before (State.pulsed_head hl),
    State.reportPulse_flowing role m (State.pulsed_head hl)]
  · rw [hc]
    exact hst
  · rw [hc]
    exact hleft
  · rw [hc] at hv ⊢
    exact hv

/-- The reporting of the pulse of a FLOWING load at a boundary. -/
theorem State.takePulse_closing (hb : s.meterBinding m = some (a, role)) (hl : s.head a = some l) (hst : l.state = .flowing)
    (hv : nextBoundary (s.defn a).w l.db (closeAhead l.preset (s.defn a).a) l.vc ≤ (l.credit (s.meter m) role).v) :
    s.takePulse m = State.reportPulse a role m false ((s.pulsed m a role).intervalClose a) := by
  have hc := Load.credit_eq (s.meter m) role l
  rw [State.takePulse_flowing hb hl hst, State.closeIfDue_of (State.pulsed_head hl)]
  · rw [hc, hst]
    rfl
  · rw [hc] at hv ⊢
    exact hv

/-- The close of a credited pulse that stays in the body. -/
theorem State.pulsed_bodyClosed (hl : s.head a = some l) (hst : l.state = .flowing) (hphase : l.phase = .body)
    (hleft : l.rstLeft = 0) (hstep : 1 ≤ l.step) (hstarted : (s.arm a).flow.started = true)
    (hn : (l.adds.map (·.inj)).Nodup) (hcls : s.causes[Cause.additiveLag.index] = .note) (hw : s.waits a = false)
    (hahead : (l.credit (s.meter m) role).v < closeAhead l.preset (s.defn a).a) (hdb : (l.credit (s.meter m) role).v < l.db) :
    let p := s.pulsed m a role
    let k := (s.creditClosed m role l).shareAndAlarm (s.defn a) (s.recipeOf l)
    ∃ t n limit rate q ns,
      StepsTaken (s.recipeOf l).profile l.preset k.v (s.arm a).flow l.step n limit rate q ∧
      BodyClosed a l (s.handedLoad a n ns k) s t limit rate q k.share
        (fun e => (s.dueAt k.v e).lags (s.defn a).lag) (fun e => s.strikes a (s.dueAt k.v e)) false p.meters ∧
      (∀ e ∈ (s.handedLoad a n ns k).adds, t.strikes a e = false) ∧ t.waits a = false ∧
      p.intervalClose a = if (s.creditClosed m role l).alarmRaised (s.defn a) (s.recipeOf l) then
        t.raiseRatio a (s.creditClosed m role l).dev else t := by
  have hc := Load.credit_eq (s.meter m) role l
  obtain ⟨u, t, n, limit, rate, q, ns, hu, hrec, hhand, hclosed⟩ := State.intervalClose_body (s := s.pulsed m a role)
    (State.pulsed_head hl) (by rw [hc]; exact hst) (by rw [hc]; exact hphase) (by rw [hc]; exact hleft)
    (by rw [hc]; exact hstep) hstarted (by rw [hc]; exact hn) hcls (by rw [hc] at hahead ⊢; exact hahead)
    (by rw [hc] at hdb ⊢; exact hdb)
  rw [State.pulsed_closeAccounts hst] at hrec hhand hclosed
  have hrecipe : (s.pulsed m a role).recipeOf (l.credit (s.meter m) role) = s.recipeOf l := by
    rw [hc]
    rfl
  have hdefn : (s.pulsed m a role).defn a = s.defn a := rfl
  rw [hrecipe, hdefn] at hrec hhand hclosed
  have hkeep : (s.creditClosed m role l).shareAndAlarm (s.defn a) (s.recipeOf l) =
      { (s.creditClosed m role l).shareAndAlarm (s.defn a) (s.recipeOf l) with
        number := l.number, recipe := l.recipe, preset := l.preset, state := .flowing, phase := .body, adds := l.adds
        notices := l.notices, step := l.step } := by
    rw [State.creditClosed, hc, ← hst, ← hphase]
    rfl
  generalize (s.creditClosed m role l).shareAndAlarm (s.defn a) (s.recipeOf l) = k at hkeep hrec hhand ⊢
  have hmeters : u.meters = (s.pulsed m a role).meters := by rw [hu]
  have hover : u = { s with loads := u.loads, meters := u.meters } := by
    rw [hmeters]
    exact hu
  have hrec' := (State.pulsed_rewritten (m := m) (role := role) hl).trans hrec
  have hbody := hhand.bodyClosed hover hrec' (by rw [hkeep]) (by rw [hkeep]) (by rw [hkeep]) (by rw [hkeep]) (by rw [hkeep])
  rw [hmeters] at hbody
  have hsteps := hhand.steps
  have hquiet := hhand.quiet
  have hwaits := hhand.waits
  have hsame : u.recipeOf k = s.recipeOf l ∧ k.preset = l.preset ∧ k.step = l.step ∧ u.arm a = s.arm a ∧
      u.waits a = s.waits a ∧ u.handedLoad a n ns k = s.handedLoad a n ns k := by
    rw [hover]
    exact ⟨by rw [hkeep]; rfl, by rw [hkeep], by rw [hkeep], rfl, rfl, rfl⟩
  obtain ⟨hrecipe', hpreset, hfirst, harm, hwait, hload⟩ := hsame
  rw [hrecipe', hpreset, harm, hfirst] at hsteps
  rw [hload] at hquiet
  exact ⟨t, n, limit, rate, q, ns, hsteps, hbody, hquiet, hwaits (hwait.trans hw), hclosed⟩

/-- The close of a credited pulse that ends the body, and the reporting of the pulse. -/
theorem State.pulsed_flushClosed (hl : s.head a = some l) (hst : l.state = .flowing) (hphase : l.phase = .body)
    (hleft : l.rstLeft = 0) (hstep : 1 ≤ l.step) (hstarted : (s.arm a).flow.started = true)
    (hn : (l.adds.map (·.inj)).Nodup) (hcls : s.causes[Cause.additiveLag.index] = .note) (hw : s.waits a = false)
    (hahead : (l.credit (s.meter m) role).v < closeAhead l.preset (s.defn a).a) (hdb : l.db ≤ (l.credit (s.meter m) role).v) :
    let k := (s.creditClosed m role l).enterFlush
    let t := State.reportPulse a role m false ((s.pulsed m a role).intervalClose a)
    ∃ n limit rate q ns adds nb,
      StepsTaken (s.recipeOf l).profile l.preset k.v (s.arm a).flow l.step n limit rate q ∧
      adds.map (·.due) = l.adds.map (fun e => (s.dueAt k.v e).due) ∧
      t.head a = some { k with step := n, notices := ns, adds := adds } ∧
      t.arm a = (s.arm a).splitAt ((s.arm a).flow.profiled limit rate q) (min q (s.defn a).qMax) 0 nb none ∧
      t.participates a = false ∧ t.waits a = false := by
  have hc := Load.credit_eq (s.meter m) role l
  obtain ⟨u, n, limit, rate, q, ns, hkept, hrecipes, harm, hout, hhand⟩ := State.intervalClose_flush (s := s.pulsed m a role)
    (State.pulsed_head hl) (by rw [hc]; exact hst) (by rw [hc]; exact hphase) (by rw [hc]; exact hleft)
    (by rw [hc]; exact hstep) hstarted (by rw [hc]; exact hn) hcls hw (by rw [hc] at hahead ⊢; exact hahead)
    (by rw [hc] at hdb ⊢; exact hdb)
  rw [State.pulsed_closeAccounts hst] at hhand
  have hkeep : (s.creditClosed m role l).enterFlush =
      { (s.creditClosed m role l).enterFlush with
        recipe := l.recipe, preset := l.preset, state := .flowing, phase := .flush, share := 0, rstLeft := l.rstLeft
        step := l.step, adds := l.adds } := by
    rw [State.creditClosed, hc, ← hst]
    rfl
  generalize (s.creditClosed m role l).enterFlush = k at hkeep hhand ⊢
  have hdue : ∀ e, (u.handedEntry a k.v e).due = (s.dueAt k.v e).due := fun e => by
    have hset := (hkept.injector e.inj).settings
    have hstroke : (u.injector e.inj).stroke = (s.injector e.inj).stroke := (congrArg (·.2.1) hset :)
    rw [State.handedEntry, AddEntry.counted]
    simp only [State.dueAt, hstroke]
  obtain ⟨hsteps, hrecord, hown, -, -, -, -, haside⟩ := hhand
  have hsame : u.recipeOf k = s.recipeOf l ∧ k.preset = l.preset ∧ k.step = l.step ∧ k.adds = l.adds ∧ k.share = 0 := by
    rw [hkeep]
    refine ⟨?_, rfl, rfl, rfl, rfl⟩
    rw [State.recipeOf, State.recipe, hrecipes]
    rfl
  obtain ⟨hrecipe, hpreset, hfirst, hadds, hshare⟩ := hsame
  have hnot : k.inBody = false := by
    rw [hkeep]
    simp [Load.inBody]
  have hdemand : u.handedDemand a q = min q (s.defn a).qMax := by
    rw [State.handedDemand, State.defn, harm]
    rfl
  rw [hrecipe, hpreset, harm, hfirst] at hsteps
  dsimp only at hown
  rw [hnot, hdemand, hshare, harm, if_neg Bool.false_ne_true, splitFlow_eq, if_pos rfl] at hown
  obtain ⟨nb, ne, hsplit, hne⟩ := Arm.setFlow_splitAt (s.arm a) ((s.arm a).flow.profiled limit rate q)
    (min q (s.defn a).qMax) 0
  have hown' := hown.trans hsplit
  generalize (s.pulsed m a role).intervalClose a = t at hrecord hown' haside
  obtain ⟨nb', ne', hseen, hne'⟩ := Arm.splitAt_seen (s.arm a) ((s.arm a).flow.profiled limit rate q)
    (min q (s.defn a).qMax) 0 (t.defn a).noFlow role nb ne hne
  rw [hne' rfl] at hseen
  rw [State.reportPulse_flowing role m hrecord.after (by rw [hkeep]; rfl) (by rw [hkeep]; exact hleft)]
  refine ⟨n, limit, rate, q, ns, l.adds.map (u.handedEntry a k.v), nb', hsteps, ?_, ?_, ?_, ?_, ?_⟩
  · rw [List.map_map]
    exact List.map_congr_left fun e _ => hdue e
  · rw [State.modFlow_head, hrecord.after, State.handedLoad, hadds]
  · rw [State.modFlow_arm, if_pos rfl, hown']
    exact hseen
  · exact (participates_of_parts haside.parts a).trans hout.participates
  · have hwaits : t.waits a = u.waits a := by
      rw [State.waits, haside.rest]
      rfl
    exact hwaits.trans hout.waits

end

section
variable {a : ArmId} {l k : Load} {s t : State} {limit rate q share : Nat} {late fires : AddEntry → Bool}
  {ms : Vector Meter 16}

/-- RATIO_DEVIATION of another class than NOTE, and the reporting of the pulse: the account and the profile stand. -/
theorem BodyClosed.deviated (h : BodyClosed a l k s t limit rate q share late fires false ms) (hst : k.state = .flowing)
    (hleft : k.rstLeft = 0) (hn : (k.adds.map (·.inj)).Nodup) (hquiet : ∀ e ∈ k.adds, t.strikes a e = false)
    (hw : t.waits a = false) (hcls : s.causes[Cause.ratioDeviation.index] ≠ .note) (dev : Int) (r : Role) (m : MeterId) :
    let u := State.reportPulse a r m false (t.raiseRatio a dev)
    ∃ j, u.head a = some j ∧ j.reckoning = k.reckoning ∧ (u.arm a).flow.limit = limit ∧ (u.arm a).flow.rate = rate ∧
      (s.causes[Cause.ratioDeviation.index] = .hold → notEscalated (s.defn a) k →
        heldBy .ratioDeviation (if 0 < dev then .shortOf else .excess) a k u) := by
  have hcauses : t.causes = s.causes := by rw [h.rest]
  obtain ⟨nb, ne, harm, -⟩ := h.arm
  have htaken : Reckoned a t (t.raiseRatio a dev) := State.takeCause_reckoned _ (hcauses ▸ hcls) hw h.record.after hst hn hquiet
  obtain ⟨j, hj, hjk⟩ := htaken.head k h.record.after
  have hjleft : j.rstLeft = 0 := ((congrArg Load.rstLeft hjk :) : j.rstLeft = k.rstLeft).trans hleft
  have hseen := State.reportPulse_reckoned r m htaken.waits hj hjleft
  obtain ⟨i, hi, hij⟩ := hseen.head j hj
  refine ⟨i, hi, hij.trans hjk, ?_, ?_, fun hhold hesc => ?_⟩
  · rw [hseen.limit, htaken.limit, harm]
    rfl
  · rw [hseen.rate, htaken.rate, harm]
    rfl
  · have hdefn : t.defn a = s.defn a := by
      rw [State.defn, harm]
      rfl
    have hheld := (State.takeCause_heldBy (if 0 < dev then .shortOf else .excess) (hcauses ▸ hhold) h.record.after hst
      (hdefn ▸ hesc) hw).1
    obtain ⟨⟨p, hp, hnumber, hstate, -⟩, -⟩ := id hheld
    have hpj : p = j := Option.some.inj (hp.symm.trans hj)
    rw [State.reportPulse_held r m hj (hpj ▸ hstate) hjleft]
    exact hheld

end


end Sys2Proof.Machine

end

section
/-! PROOFS. A pulse credited to a FLOWING load, as it is stated (R79, R101 to R113): O31. -/

namespace Sys2Proof.Machine

theorem alarmCount_eq (devCount band : Nat) (l : Load) :
    alarmCount devCount band l =
      let outside := decide (band < l.dev.natAbs)
      let raised := outside && decide (devCount ≤ l.alarms + 1)
      (if raised then 0 else if outside then l.alarms + 1 else 0, raised) := by
  unfold alarmCount
  by_cases h1 : band < l.dev.natAbs
  · by_cases h2 : devCount ≤ l.alarms + 1 <;> simp [h1, h2]
  · simp [h1]

theorem Load.credit_stated (x : Meter) (r : Role) (l : Load) :
    l.credit x r =
      let pulses := min 4294967295 ((l.account r).pulses + 1)
      let gross := min 4294967295 (pulses * 100 * x.mf / x.k)
      let v := match r with
        | .base => min 4294967295 (gross + l.eth.gross)
        | .ethanol => min 4294967295 (l.base.gross + gross)
      match r with
      | .base => { l with base := { l.base with pulses := pulses, gross := gross }, v := v }
      | .ethanol => { l with eth := { l.eth with pulses := pulses, gross := gross }, v := v } := by
  cases r with
  | base => exact Load.credit_base x l
  | ethanol => exact Load.credit_ethanol x l

theorem Step.holds_iff (p : Step) (preset v : Nat) :
    (match p.kind with
      | .del => p.vol * 1000 ≤ v
      | .rem => (preset : Int) * 1000 - v ≤ p.vol * 1000) ↔ p.holds preset v = true := by
  unfold Step.holds
  cases p.kind <;> simp

/-- Settles O31: the credit, then what a close writes, hands on and raises. -/
theorem pulseIsCreditedToTheLoad : Obligations.PulseIsCreditedToTheLoad := by
  intro m a role l s hp hb hl hst hleft d x pulses gross v credited boundary
  have hcred : l.credit (s.meter m) role = credited := Load.credit_stated (s.meter m) role l
  have hv : credited.v = v := by
    cases role <;> rfl
  have harm := (State.head_some hl).2.1
  refine ⟨fun hbefore => ?_, ?_⟩
  · have hflow := State.takePulse_before hb hl hst hleft (by rw [hcred, hv]; exact hbefore)
    refine ⟨_, (event_powered hp).trans (congrArg _ hflow), ?_, rfl, rfl, rfl,
      fun b hb => (State.modFlow_arm _ _ _ _).trans (if_neg hb), fun k hk => State.pulsed_meter (a := a) (role := role) hk, ?_⟩
    · rw [← hcred]
      exact (State.pulsed_rewritten hl).loads
    · rw [State.modFlow_arm, if_pos rfl, FlowState.pulseSeen_eq]
      rfl
  · intro hbound hahead hphase hstarted hstep hn hnote hw r base eth line dev due holds written demanded
    have hholds : ∀ p, holds p ↔ p.holds l.preset v = true := fun p => Step.holds_iff p l.preset v
    have hclosing := State.takePulse_closing hb hl hst (by rw [hcred, hv]; exact hbound)
    have hclosed : s.creditClosed m role l =
        { l with v := v, vc := v, base := base, eth := eth, dev := dev, peak := max l.peak dev.natAbs } := by
      have hsplit : credited = { l with v := v, base := credited.base, eth := credited.eth } := by
        cases role <;> rfl
      have hline : ethLine l.et l.ea l.db l.va v = line := rfl
      have heth : s.closedEth (s.defn a) credited.eth = eth := by
        unfold State.closedEth
        rfl
      rw [State.creditClosed, hcred, hv, show s.defn l.arm = s.defn a by rw [harm], heth, hline]
      exact congrArg (fun c : Load => { c with
        v := v, vc := v, base := base, eth := eth, dev := dev, peak := max l.peak dev.natAbs }) hsplit
    refine ⟨fun hdb => ?_, fun hdb => ?_⟩
    · intro outside raised raw share late fires
      obtain ⟨t, n, limit, rate, q, ns, hsteps, hbody, hquiet, hwaits, hclose⟩ := State.pulsed_bodyClosed (m := m)
        (role := role) hl hst hphase hleft hstep hstarted hn hnote hw (by rw [hcred, hv]; exact hahead)
        (by rw [hcred, hv]; exact hdb)
      obtain ⟨k2, hk2⟩ : ∃ k2 : Load, k2 =
          { l with
            v := v, vc := v, base := base, eth := eth, dev := dev, peak := max l.peak dev.natAbs, share := share
            alarms := if raised then 0 else if outside then l.alarms + 1 else 0 } := ⟨_, rfl⟩
      have hshared : (s.creditClosed m role l).shareAndAlarm (s.defn a) (s.recipeOf l) = k2 := by
        rw [hclosed, Load.shareAndAlarm, alarmCount_eq, hk2]
        rfl
      have hraised : (s.creditClosed m role l).alarmRaised (s.defn a) (s.recipeOf l) = raised := by
        rw [hclosed, Load.alarmRaised, alarmCount_eq, Load.inBody]
        dsimp only
        rw [hst, hphase]
        rfl
      have hdev : (s.creditClosed m role l).dev = dev := by rw [hclosed]
      rw [hshared] at hsteps hbody hquiet
      rw [hraised, hdev] at hclose
      rw [hclose] at hclosing
      have hv2 : k2.v = v := by rw [hk2]
      have hshare2 : k2.share = share := by rw [hk2]
      have hst2 : k2.state = .flowing := by
        rw [hk2]
        exact hst
      have hleft2 : k2.rstLeft = 0 := by
        rw [hk2]
        exact hleft
      have hadds2 : k2.adds = l.adds := by rw [hk2]
      rw [hv2] at hsteps
      rw [hv2, hshare2] at hbody
      have hadds : (s.handedLoad a n ns k2).adds = l.adds.map fun e =>
          { e with due := due e, fired := if fires e then e.fired + 1 else e.fired } := by
        rw [State.handedLoad, hadds2, hv2]
        rfl
      have hwritten : ∀ (k : Load) (f : FlowState), k.reckoning = (s.handedLoad a n ns k2).reckoning →
          f.limit = limit → f.rate = rate →
          written k f ∧ k.alarms = (if raised then 0 else if outside then l.alarms + 1 else 0) ∧
            k.adds = l.adds.map fun e =>
              { e with due := due e, fired := if fires e then e.fired + 1 else e.fired } := by
        intro k f hk hlimit hrate
        have hall := Eq.trans (show k.adds = _ from (congrArg Load.adds hk :)) hadds
        have hstated := hsteps.stated hholds
        rw [← hlimit, ← hrate, ← show k.step = n from (congrArg Load.step hk :)] at hstated
        have hdues : k.adds.map (·.due) = l.adds.map due := by
          rw [hall, List.map_map]
          rfl
        rw [hk2] at hk
        exact ⟨⟨(congrArg Load.number hk :), (congrArg Load.v hk :), (congrArg Load.vc hk :), (congrArg Load.base hk :),
          (congrArg Load.eth hk :), (congrArg Load.dev hk :), (congrArg Load.peak hk :), hdues, hstated⟩,
          (congrArg Load.alarms hk :), hall⟩
      have hcauses : t.causes = s.causes := by rw [hbody.rest]
      by_cases hcase : raised = false ∨ s.causes[Cause.ratioDeviation.index] = .note
      · obtain ⟨ns8, hnoted⟩ := hbody.raised hst2 (hcauses ▸ hcase) dev
        have hfinal := hnoted.seen hst2 hleft2 role m
        generalize State.reportPulse a role m false (if raised then t.raiseRatio a dev else t) = w at hclosing hfinal
        obtain ⟨hrecord, ⟨nb, ne, harmw, -⟩, hasked, hnotices, hfired, hother, hrest, hothers⟩ := hfinal
        obtain ⟨hwrote, halarms, hall⟩ := hwritten ((s.handedLoad a n ns k2).withNotices ns8) (w.arm a).flow rfl
          (by rw [harmw]; rfl) (by rw [harmw]; rfl)
        refine ⟨w, (s.handedLoad a n ns k2).withNotices ns8, (event_powered hp).trans (congrArg _ hclosing), hrecord.after,
          hwrote, halarms, hall, fun _ => ?_, fun hr hh _ => ?_⟩
        · have hlanes : w.lanes = s.lanes ∧ w.recipes = s.recipes ∧ w.header.settings = s.header.settings ∧
              w.header.queue = s.header.queue ∧ w.meters = (s.pulsed m a role).meters := by
            rw [hrest]
            exact ⟨rfl, rfl, rfl, rfl, rfl⟩
          obtain ⟨hlanes, hrecipes, hsettings, hqueue, hmeters⟩ := hlanes
          rw [harmw]
          refine ⟨hst2, ?_, hshare2, ?_, splitFlow_eq _ _ _ _, rfl, rfl, rfl, rfl, hasked, hnotices, hfired, hother,
            hrecord.loads, hlanes, hrecipes, hsettings, hqueue, fun i hi => ?_, hothers⟩
          · rw [← hphase]
            exact (congrArg Load.phase hk2 :)
          · exact ⟨fun h => hsteps.keeps (h.imp_right And.right), fun h hr _ => hsteps.snaps h hr⟩
          · refine Eq.trans ?_ (State.pulsed_meter (a := a) (role := role) hi)
            rw [State.meter, hmeters]
            rfl
        · rcases hcase with h | h
          · rw [h] at hr
            cases hr
          · rw [h] at hh
            cases hh
      · rw [not_or] at hcase
        obtain ⟨hnot, hcls⟩ := hcase
        have hrise : raised = true := by simpa using hnot
        rw [if_pos hrise] at hclosing
        obtain ⟨k, hk, hreck, hlimit, hrate, hheld⟩ := hbody.deviated hst2 hleft2
          (by rw [hadds, List.map_map]; exact hn) hquiet hwaits hcls dev role m
        obtain ⟨hwrote, halarms, hall⟩ := hwritten k _ hreck hlimit hrate
        refine ⟨_, k, (event_powered hp).trans (congrArg _ hclosing), hk, hwrote, halarms, hall, fun h => ?_,
          fun _ hh hesc => ?_⟩
        · rcases h with h | h
          · exact absurd h hnot
          · exact absurd h hcls
        · have hby := hheld hh (by rw [hk2]; exact hesc)
          rw [hk2] at hby
          exact hby
    · obtain ⟨n, limit, rate, q, ns, adds, nb, hsteps, hdues, hhead, harmw, hparts, hwaits⟩ := State.pulsed_flushClosed (m := m)
        (role := role) hl hst hphase hleft hstep hstarted hn hnote hw (by rw [hcred, hv]; exact hahead)
        (by rw [hcred, hv]; exact hdb)
      rw [← hclosing] at hhead harmw hparts hwaits
      rw [hclosed] at hsteps hdues hhead
      refine ⟨_, _, event_powered hp, hhead, ?_⟩
      rw [harmw]
      exact ⟨⟨rfl, rfl, rfl, rfl, rfl, rfl, rfl, hdues, hsteps.stated hholds⟩, hst, rfl, rfl, rfl, hparts, hwaits,
        ⟨fun h => hsteps.keeps (h.imp_right And.right), fun h hr _ => hsteps.snaps h hr⟩, rfl, rfl, rfl, rfl, valveCommand_zero _, rfl⟩

end Sys2Proof.Machine

end
